-- ==== Sys2Proof/Word.lean ====
section
/-! DEFINITION. The word types of the fm_demodulator core (00_scope.md R7, R8; 20_memory.md R71; 30_encoding.md
R100, R106 to R108): what the spec treats as bits. Arithmetic on binary32 patterns is in Machine/Float.lean. -/

namespace Sys2Proof

/-- `u32` of R7: a register, a counter, an oscillator phase, bus write data. -/
abbrev Word := BitVec 32

/-- `u16`: a transaction code (R100), a CFG16 register (R35), a fill count or a decimation phase (R64). -/
abbrev Half := BitVec 16

/-- One byte: an I or Q byte of IQ_IN (R106), a BIT_OUT element (R108). -/
abbrev Byte := BitVec 8

/-- A sample value as its IEEE-754 binary32 pattern (R8, R71): sign in bit 31, exponent in bits 30..23, fraction in
bits 22..0. -/
abbrev F32 := BitVec 32

/-- A complex sample, the ordered pair `(re, im)` of R8. -/
structure C32 where
  re : F32
  im : F32
deriving DecidableEq, Repr

/-- The complex sample `(+0, +0)`, the reset value of every complex field of R64. -/
abbrev C32.zero : C32 := ⟨0#32, 0#32⟩

end Sys2Proof
end

