-- ==== Sys2Proof/Syntax.lean ====
section
/-! DEFINITION. The operations of the core, one constructor per row of spec/opcode_table.json (30_encoding.md R104), the
transaction that names one (R100), and the ways a transaction code can be reserved (R105). The core executes no
instruction stream (R32); an "instruction" of this model is one step of R5: a bus access, a stream beat or a firing. -/

namespace Sys2Proof

/-- One transaction (R100): the 16-bit code `{KIND[15:12], SEL[11:0]}` and the payload that goes with it to the core,
in the low bits of 32: a bus write's `wdata[31:0]`, the 16-bit IQ_IN element or the 32-bit AUD_IN element. A kind that
carries nothing to the core leaves the payload unread (notes/assumptions/8). -/
structure Txn where
  code : Half
  payload : Word
deriving DecidableEq, Repr

/-- Why a transaction code spells no operation (R105). -/
inductive ReservedCode where
  /-- KIND 4..15. -/
  | kind
  /-- KIND 2 with SEL at or above 0x004. -/
  | port
  /-- KIND 3 with SEL at or above 9. -/
  | unit
deriving DecidableEq, Repr

/-- The operations. `sub` is `addr[1:0]` of a bus access, carried by the code and ignored by the core (R71, R101);
`addr` is the whole byte address of an unmapped access; `v` is the write data or the AUD_IN element. -/
inductive Instr where
  /-- `RD_ID`, register 0x000 (R140). -/
  | rdId (sub : BitVec 2)
  /-- `RD_CTRL`, register 0x004 (R140). -/
  | rdCtrl (sub : BitVec 2)
  /-- `RD_STATUS`, register 0x008 (R140). -/
  | rdStatus (sub : BitVec 2)
  /-- `RD_IRQ_EN`, register 0x00C (R140). -/
  | rdIrqEn (sub : BitVec 2)
  /-- `RD_IN_COUNT`, register 0x010 (R140). -/
  | rdInCount (sub : BitVec 2)
  /-- `RD_AUD_COUNT`, register 0x014 (R140). -/
  | rdAudCount (sub : BitVec 2)
  /-- `RD_SYM_COUNT`, register 0x018 (R140). -/
  | rdSymCount (sub : BitVec 2)
  /-- `RD_BIT_COUNT`, register 0x01C (R140). -/
  | rdBitCount (sub : BitVec 2)
  /-- `RD_RX_FREQ`, register 0x020 (R140). -/
  | rdRxFreq (sub : BitVec 2)
  /-- `RD_RX_PHASE`, register 0x024 (R140). -/
  | rdRxPhase (sub : BitVec 2)
  /-- `RD_RX_OMEGA`, register 0x028 (R140). -/
  | rdRxOmega (sub : BitVec 2)
  /-- `RD_RX_MU`, register 0x02C (R140). -/
  | rdRxMu (sub : BitVec 2)
  /-- `RD_CS_INC`, register 0x040 (R140). -/
  | rdCsInc (sub : BitVec 2)
  /-- `RD_CS_DECIM`, register 0x044 (R140). -/
  | rdCsDecim (sub : BitVec 2)
  /-- `RD_CS_NTAPS`, register 0x048 (R140). -/
  | rdCsNtaps (sub : BitVec 2)
  /-- `RD_FMD_GAIN`, register 0x050 (R140). -/
  | rdFmdGain (sub : BitVec 2)
  /-- `RD_FMD_DECIM`, register 0x054 (R140). -/
  | rdFmdDecim (sub : BitVec 2)
  /-- `RD_FMD_NTAPS`, register 0x058 (R140). -/
  | rdFmdNtaps (sub : BitVec 2)
  /-- `RD_FMD_ALPHA`, register 0x05C (R140). -/
  | rdFmdAlpha (sub : BitVec 2)
  /-- `RD_TM_INC`, register 0x060 (R140). -/
  | rdTmInc (sub : BitVec 2)
  /-- `RD_TM_DECIM`, register 0x064 (R140). -/
  | rdTmDecim (sub : BitVec 2)
  /-- `RD_TM_NTAPS`, register 0x068 (R140). -/
  | rdTmNtaps (sub : BitVec 2)
  /-- `RD_RX_OMEGA_MID`, register 0x070 (R140). -/
  | rdRxOmegaMid (sub : BitVec 2)
  /-- `RD_RX_OMEGA_REL`, register 0x074 (R140). -/
  | rdRxOmegaRel (sub : BitVec 2)
  /-- `RD_RX_GAIN_MU`, register 0x078 (R140). -/
  | rdRxGainMu (sub : BitVec 2)
  /-- `RD_RX_GAIN_OMEGA`, register 0x07C (R140). -/
  | rdRxGainOmega (sub : BitVec 2)
  /-- `RD_RX_ALPHA`, register 0x080 (R140). -/
  | rdRxAlpha (sub : BitVec 2)
  /-- `RD_RX_BETA`, register 0x084 (R140). -/
  | rdRxBeta (sub : BitVec 2)
  /-- `RD_RX_FMIN`, register 0x088 (R140). -/
  | rdRxFmin (sub : BitVec 2)
  /-- `RD_RX_FMAX`, register 0x08C (R140). -/
  | rdRxFmax (sub : BitVec 2)
  /-- `RD_DD_SKIP`, register 0x090 (R140). -/
  | rdDdSkip (sub : BitVec 2)
  /-- `RD_TAP_ADDR`, register 0x100 (R140). -/
  | rdTapAddr (sub : BitVec 2)
  /-- `RD_TAP_DATA`, register 0x104 (R149). -/
  | rdTapData (sub : BitVec 2)
  /-- `WR_ID`, register 0x000 (R151). -/
  | wrId (sub : BitVec 2) (v : Word)
  /-- `WR_CTRL`, register 0x004 (R142). -/
  | wrCtrl (sub : BitVec 2) (v : Word)
  /-- `WR_STATUS`, register 0x008 (R146). -/
  | wrStatus (sub : BitVec 2) (v : Word)
  /-- `WR_IRQ_EN`, register 0x00C (R147). -/
  | wrIrqEn (sub : BitVec 2) (v : Word)
  /-- `WR_IN_COUNT`, register 0x010 (R151). -/
  | wrInCount (sub : BitVec 2) (v : Word)
  /-- `WR_AUD_COUNT`, register 0x014 (R151). -/
  | wrAudCount (sub : BitVec 2) (v : Word)
  /-- `WR_SYM_COUNT`, register 0x018 (R151). -/
  | wrSymCount (sub : BitVec 2) (v : Word)
  /-- `WR_BIT_COUNT`, register 0x01C (R151). -/
  | wrBitCount (sub : BitVec 2) (v : Word)
  /-- `WR_RX_FREQ`, register 0x020 (R151). -/
  | wrRxFreq (sub : BitVec 2) (v : Word)
  /-- `WR_RX_PHASE`, register 0x024 (R151). -/
  | wrRxPhase (sub : BitVec 2) (v : Word)
  /-- `WR_RX_OMEGA`, register 0x028 (R151). -/
  | wrRxOmega (sub : BitVec 2) (v : Word)
  /-- `WR_RX_MU`, register 0x02C (R151). -/
  | wrRxMu (sub : BitVec 2) (v : Word)
  /-- `WR_CS_INC`, register 0x040 (R141). -/
  | wrCsInc (sub : BitVec 2) (v : Word)
  /-- `WR_CS_DECIM`, register 0x044 (R141). -/
  | wrCsDecim (sub : BitVec 2) (v : Word)
  /-- `WR_CS_NTAPS`, register 0x048 (R141). -/
  | wrCsNtaps (sub : BitVec 2) (v : Word)
  /-- `WR_FMD_GAIN`, register 0x050 (R141). -/
  | wrFmdGain (sub : BitVec 2) (v : Word)
  /-- `WR_FMD_DECIM`, register 0x054 (R141). -/
  | wrFmdDecim (sub : BitVec 2) (v : Word)
  /-- `WR_FMD_NTAPS`, register 0x058 (R141). -/
  | wrFmdNtaps (sub : BitVec 2) (v : Word)
  /-- `WR_FMD_ALPHA`, register 0x05C (R141). -/
  | wrFmdAlpha (sub : BitVec 2) (v : Word)
  /-- `WR_TM_INC`, register 0x060 (R141). -/
  | wrTmInc (sub : BitVec 2) (v : Word)
  /-- `WR_TM_DECIM`, register 0x064 (R141). -/
  | wrTmDecim (sub : BitVec 2) (v : Word)
  /-- `WR_TM_NTAPS`, register 0x068 (R141). -/
  | wrTmNtaps (sub : BitVec 2) (v : Word)
  /-- `WR_RX_OMEGA_MID`, register 0x070 (R141). -/
  | wrRxOmegaMid (sub : BitVec 2) (v : Word)
  /-- `WR_RX_OMEGA_REL`, register 0x074 (R141). -/
  | wrRxOmegaRel (sub : BitVec 2) (v : Word)
  /-- `WR_RX_GAIN_MU`, register 0x078 (R141). -/
  | wrRxGainMu (sub : BitVec 2) (v : Word)
  /-- `WR_RX_GAIN_OMEGA`, register 0x07C (R141). -/
  | wrRxGainOmega (sub : BitVec 2) (v : Word)
  /-- `WR_RX_ALPHA`, register 0x080 (R141). -/
  | wrRxAlpha (sub : BitVec 2) (v : Word)
  /-- `WR_RX_BETA`, register 0x084 (R141). -/
  | wrRxBeta (sub : BitVec 2) (v : Word)
  /-- `WR_RX_FMIN`, register 0x088 (R141). -/
  | wrRxFmin (sub : BitVec 2) (v : Word)
  /-- `WR_RX_FMAX`, register 0x08C (R141). -/
  | wrRxFmax (sub : BitVec 2) (v : Word)
  /-- `WR_DD_SKIP`, register 0x090 (R141). -/
  | wrDdSkip (sub : BitVec 2) (v : Word)
  /-- `WR_TAP_ADDR`, register 0x100 (R148). -/
  | wrTapAddr (sub : BitVec 2) (v : Word)
  /-- `WR_TAP_DATA`, register 0x104 (R150). -/
  | wrTapData (sub : BitVec 2) (v : Word)
  /-- `RD_UNMAPPED` (R152). -/
  | rdUnmapped (addr : BitVec 12)
  /-- `WR_UNMAPPED` (R151). -/
  | wrUnmapped (addr : BitVec 12) (v : Word)
  /-- `PUSH_IQ` (R153). -/
  | pushIq (i q : Byte)
  /-- `POP_AUD` (R155). -/
  | popAud
  /-- `PUSH_AUD` (R156). -/
  | pushAud (v : F32)
  /-- `POP_BIT` (R157). -/
  | popBit
  /-- `FIRE_MIX0` (R182). -/
  | fireMix0
  /-- `FIRE_FIR0` (R201). -/
  | fireFir0
  /-- `FIRE_QD` (R232). -/
  | fireQd
  /-- `FIRE_FIR1` (R201). -/
  | fireFir1
  /-- `FIRE_DE` (R236). -/
  | fireDe
  /-- `FIRE_MIX1` (R184). -/
  | fireMix1
  /-- `FIRE_FIR2` (R201). -/
  | fireFir2
  /-- `FIRE_RX` (R261). -/
  | fireRx
  /-- `FIRE_DD` (R311). -/
  | fireDd
deriving DecidableEq, Repr

end Sys2Proof
end

