-- ==== Sys2Proof/WellFormed.lean ====
section
/-! DEFINITION. Which terms of `Instr` are operations. Every operand field is already as wide as its encoding, so one
condition is left: an access to an unmapped address names an address that no register has (10_state.md R34,
30_encoding.md R104: "the two `_UNMAPPED` rows apply only to codes of KIND 0 or 1 that no register row matches"). -/

namespace Sys2Proof

/-- The register numbers `addr[11:2]` of the register map (R34, R101). -/
def mappedRegs : List (BitVec 10) :=
  [0x000#10, 0x001#10, 0x002#10, 0x003#10, 0x004#10, 0x005#10, 0x006#10, 0x007#10, 0x008#10,
   0x009#10, 0x00A#10, 0x00B#10, 0x010#10, 0x011#10, 0x012#10, 0x014#10, 0x015#10, 0x016#10,
   0x017#10, 0x018#10, 0x019#10, 0x01A#10, 0x01C#10, 0x01D#10, 0x01E#10, 0x01F#10, 0x020#10,
   0x021#10, 0x022#10, 0x023#10, 0x024#10, 0x040#10, 0x041#10]

/-- Whether the byte address selects a register of R34; `addr[1:0]` is ignored (R71). -/
def isMapped (addr : BitVec 12) : Bool := mappedRegs.contains (addr.extractLsb' 2 10)

/-- Whether the term is an operation. -/
def wellFormed (i : Instr) : Bool :=
  match i with
  | .rdId _ => true
  | .rdCtrl _ => true
  | .rdStatus _ => true
  | .rdIrqEn _ => true
  | .rdInCount _ => true
  | .rdAudCount _ => true
  | .rdSymCount _ => true
  | .rdBitCount _ => true
  | .rdRxFreq _ => true
  | .rdRxPhase _ => true
  | .rdRxOmega _ => true
  | .rdRxMu _ => true
  | .rdCsInc _ => true
  | .rdCsDecim _ => true
  | .rdCsNtaps _ => true
  | .rdFmdGain _ => true
  | .rdFmdDecim _ => true
  | .rdFmdNtaps _ => true
  | .rdFmdAlpha _ => true
  | .rdTmInc _ => true
  | .rdTmDecim _ => true
  | .rdTmNtaps _ => true
  | .rdRxOmegaMid _ => true
  | .rdRxOmegaRel _ => true
  | .rdRxGainMu _ => true
  | .rdRxGainOmega _ => true
  | .rdRxAlpha _ => true
  | .rdRxBeta _ => true
  | .rdRxFmin _ => true
  | .rdRxFmax _ => true
  | .rdDdSkip _ => true
  | .rdTapAddr _ => true
  | .rdTapData _ => true
  | .wrId _ _ => true
  | .wrCtrl _ _ => true
  | .wrStatus _ _ => true
  | .wrIrqEn _ _ => true
  | .wrInCount _ _ => true
  | .wrAudCount _ _ => true
  | .wrSymCount _ _ => true
  | .wrBitCount _ _ => true
  | .wrRxFreq _ _ => true
  | .wrRxPhase _ _ => true
  | .wrRxOmega _ _ => true
  | .wrRxMu _ _ => true
  | .wrCsInc _ _ => true
  | .wrCsDecim _ _ => true
  | .wrCsNtaps _ _ => true
  | .wrFmdGain _ _ => true
  | .wrFmdDecim _ _ => true
  | .wrFmdNtaps _ _ => true
  | .wrFmdAlpha _ _ => true
  | .wrTmInc _ _ => true
  | .wrTmDecim _ _ => true
  | .wrTmNtaps _ _ => true
  | .wrRxOmegaMid _ _ => true
  | .wrRxOmegaRel _ _ => true
  | .wrRxGainMu _ _ => true
  | .wrRxGainOmega _ _ => true
  | .wrRxAlpha _ _ => true
  | .wrRxBeta _ _ => true
  | .wrRxFmin _ _ => true
  | .wrRxFmax _ _ => true
  | .wrDdSkip _ _ => true
  | .wrTapAddr _ _ => true
  | .wrTapData _ _ => true
  | .rdUnmapped addr => !isMapped addr
  | .wrUnmapped addr _ => !isMapped addr
  | .pushIq _ _ => true
  | .popAud => true
  | .pushAud _ => true
  | .popBit => true
  | .fireMix0 => true
  | .fireFir0 => true
  | .fireQd => true
  | .fireFir1 => true
  | .fireDe => true
  | .fireMix1 => true
  | .fireFir2 => true
  | .fireRx => true
  | .fireDd => true

end Sys2Proof
end

