-- ==== Sys2Proof/Decode.lean ====
section
/-! DEFINITION. The decoder of transactions, total, rejecting reserved codes by name (30_encoding.md R100 to R105), and
the encoder, written from the same table (R104). -/

namespace Sys2Proof

/-- `KIND`, bits [15:12] of a transaction code (R100). -/
def kindField (code : Half) : BitVec 4 := code.extractLsb' 12 4

/-- `SEL`, bits [11:0] of a transaction code (R100). -/
def selField (code : Half) : BitVec 12 := code.extractLsb' 0 12

/-- The register number `addr[11:2]` (R71, R101). -/
def regField (sel : BitVec 12) : BitVec 10 := sel.extractLsb' 2 10

/-- `addr[1:0]`, which selects nothing (R71). -/
def subField (sel : BitVec 12) : BitVec 2 := sel.extractLsb' 0 2

/-- KIND 0, a bus read (R101, R104). -/
def decodeRead (sel : BitVec 12) : Instr :=
  match (regField sel).toNat with
  | 0x000 => .rdId (subField sel)
  | 0x001 => .rdCtrl (subField sel)
  | 0x002 => .rdStatus (subField sel)
  | 0x003 => .rdIrqEn (subField sel)
  | 0x004 => .rdInCount (subField sel)
  | 0x005 => .rdAudCount (subField sel)
  | 0x006 => .rdSymCount (subField sel)
  | 0x007 => .rdBitCount (subField sel)
  | 0x008 => .rdRxFreq (subField sel)
  | 0x009 => .rdRxPhase (subField sel)
  | 0x00A => .rdRxOmega (subField sel)
  | 0x00B => .rdRxMu (subField sel)
  | 0x010 => .rdCsInc (subField sel)
  | 0x011 => .rdCsDecim (subField sel)
  | 0x012 => .rdCsNtaps (subField sel)
  | 0x014 => .rdFmdGain (subField sel)
  | 0x015 => .rdFmdDecim (subField sel)
  | 0x016 => .rdFmdNtaps (subField sel)
  | 0x017 => .rdFmdAlpha (subField sel)
  | 0x018 => .rdTmInc (subField sel)
  | 0x019 => .rdTmDecim (subField sel)
  | 0x01A => .rdTmNtaps (subField sel)
  | 0x01C => .rdRxOmegaMid (subField sel)
  | 0x01D => .rdRxOmegaRel (subField sel)
  | 0x01E => .rdRxGainMu (subField sel)
  | 0x01F => .rdRxGainOmega (subField sel)
  | 0x020 => .rdRxAlpha (subField sel)
  | 0x021 => .rdRxBeta (subField sel)
  | 0x022 => .rdRxFmin (subField sel)
  | 0x023 => .rdRxFmax (subField sel)
  | 0x024 => .rdDdSkip (subField sel)
  | 0x040 => .rdTapAddr (subField sel)
  | 0x041 => .rdTapData (subField sel)
  | _ => .rdUnmapped sel

/-- KIND 1, a bus write (R101, R104). -/
def decodeWrite (sel : BitVec 12) (v : Word) : Instr :=
  match (regField sel).toNat with
  | 0x000 => .wrId (subField sel) v
  | 0x001 => .wrCtrl (subField sel) v
  | 0x002 => .wrStatus (subField sel) v
  | 0x003 => .wrIrqEn (subField sel) v
  | 0x004 => .wrInCount (subField sel) v
  | 0x005 => .wrAudCount (subField sel) v
  | 0x006 => .wrSymCount (subField sel) v
  | 0x007 => .wrBitCount (subField sel) v
  | 0x008 => .wrRxFreq (subField sel) v
  | 0x009 => .wrRxPhase (subField sel) v
  | 0x00A => .wrRxOmega (subField sel) v
  | 0x00B => .wrRxMu (subField sel) v
  | 0x010 => .wrCsInc (subField sel) v
  | 0x011 => .wrCsDecim (subField sel) v
  | 0x012 => .wrCsNtaps (subField sel) v
  | 0x014 => .wrFmdGain (subField sel) v
  | 0x015 => .wrFmdDecim (subField sel) v
  | 0x016 => .wrFmdNtaps (subField sel) v
  | 0x017 => .wrFmdAlpha (subField sel) v
  | 0x018 => .wrTmInc (subField sel) v
  | 0x019 => .wrTmDecim (subField sel) v
  | 0x01A => .wrTmNtaps (subField sel) v
  | 0x01C => .wrRxOmegaMid (subField sel) v
  | 0x01D => .wrRxOmegaRel (subField sel) v
  | 0x01E => .wrRxGainMu (subField sel) v
  | 0x01F => .wrRxGainOmega (subField sel) v
  | 0x020 => .wrRxAlpha (subField sel) v
  | 0x021 => .wrRxBeta (subField sel) v
  | 0x022 => .wrRxFmin (subField sel) v
  | 0x023 => .wrRxFmax (subField sel) v
  | 0x024 => .wrDdSkip (subField sel) v
  | 0x040 => .wrTapAddr (subField sel) v
  | 0x041 => .wrTapData (subField sel) v
  | _ => .wrUnmapped sel v

/-- KIND 2, a stream beat (R103). The IQ_IN element has I in bits [7:0] and Q in bits [15:8] (R106). -/
def decodeBeat (sel : BitVec 12) (v : Word) : Except ReservedCode Instr :=
  match sel.toNat with
  | 0 => .ok (.pushIq (v.extractLsb' 0 8) (v.extractLsb' 8 8))
  | 1 => .ok .popAud
  | 2 => .ok (.pushAud v)
  | 3 => .ok .popBit
  | _ => .error .port

/-- KIND 3, a unit firing (R102). -/
def decodeFire (sel : BitVec 12) : Except ReservedCode Instr :=
  match sel.toNat with
  | 0 => .ok .fireMix0
  | 1 => .ok .fireFir0
  | 2 => .ok .fireQd
  | 3 => .ok .fireFir1
  | 4 => .ok .fireDe
  | 5 => .ok .fireMix1
  | 6 => .ok .fireFir2
  | 7 => .ok .fireRx
  | 8 => .ok .fireDd
  | _ => .error .unit

/-- The operation a transaction names, or why its code is reserved (R100 to R105). -/
def decode (t : Txn) : Except ReservedCode Instr :=
  match (kindField t.code).toNat with
  | 0 => .ok (decodeRead (selField t.code))
  | 1 => .ok (decodeWrite (selField t.code) t.payload)
  | 2 => decodeBeat (selField t.code) t.payload
  | 3 => decodeFire (selField t.code)
  | _ => .error .kind

/-- The code of a bus access: KIND, register number, `addr[1:0]` (R100, R101). -/
def busCode (kind : BitVec 4) (reg : BitVec 10) (sub : BitVec 2) : Half := kind ++ reg ++ sub

/-- The transaction that names an operation (R104); a payload the kind does not carry is 0. -/
def encode (i : Instr) : Txn :=
  match i with
  | .rdId sub => ⟨busCode 0#4 0x000#10 sub, 0#32⟩
  | .rdCtrl sub => ⟨busCode 0#4 0x001#10 sub, 0#32⟩
  | .rdStatus sub => ⟨busCode 0#4 0x002#10 sub, 0#32⟩
  | .rdIrqEn sub => ⟨busCode 0#4 0x003#10 sub, 0#32⟩
  | .rdInCount sub => ⟨busCode 0#4 0x004#10 sub, 0#32⟩
  | .rdAudCount sub => ⟨busCode 0#4 0x005#10 sub, 0#32⟩
  | .rdSymCount sub => ⟨busCode 0#4 0x006#10 sub, 0#32⟩
  | .rdBitCount sub => ⟨busCode 0#4 0x007#10 sub, 0#32⟩
  | .rdRxFreq sub => ⟨busCode 0#4 0x008#10 sub, 0#32⟩
  | .rdRxPhase sub => ⟨busCode 0#4 0x009#10 sub, 0#32⟩
  | .rdRxOmega sub => ⟨busCode 0#4 0x00A#10 sub, 0#32⟩
  | .rdRxMu sub => ⟨busCode 0#4 0x00B#10 sub, 0#32⟩
  | .rdCsInc sub => ⟨busCode 0#4 0x010#10 sub, 0#32⟩
  | .rdCsDecim sub => ⟨busCode 0#4 0x011#10 sub, 0#32⟩
  | .rdCsNtaps sub => ⟨busCode 0#4 0x012#10 sub, 0#32⟩
  | .rdFmdGain sub => ⟨busCode 0#4 0x014#10 sub, 0#32⟩
  | .rdFmdDecim sub => ⟨busCode 0#4 0x015#10 sub, 0#32⟩
  | .rdFmdNtaps sub => ⟨busCode 0#4 0x016#10 sub, 0#32⟩
  | .rdFmdAlpha sub => ⟨busCode 0#4 0x017#10 sub, 0#32⟩
  | .rdTmInc sub => ⟨busCode 0#4 0x018#10 sub, 0#32⟩
  | .rdTmDecim sub => ⟨busCode 0#4 0x019#10 sub, 0#32⟩
  | .rdTmNtaps sub => ⟨busCode 0#4 0x01A#10 sub, 0#32⟩
  | .rdRxOmegaMid sub => ⟨busCode 0#4 0x01C#10 sub, 0#32⟩
  | .rdRxOmegaRel sub => ⟨busCode 0#4 0x01D#10 sub, 0#32⟩
  | .rdRxGainMu sub => ⟨busCode 0#4 0x01E#10 sub, 0#32⟩
  | .rdRxGainOmega sub => ⟨busCode 0#4 0x01F#10 sub, 0#32⟩
  | .rdRxAlpha sub => ⟨busCode 0#4 0x020#10 sub, 0#32⟩
  | .rdRxBeta sub => ⟨busCode 0#4 0x021#10 sub, 0#32⟩
  | .rdRxFmin sub => ⟨busCode 0#4 0x022#10 sub, 0#32⟩
  | .rdRxFmax sub => ⟨busCode 0#4 0x023#10 sub, 0#32⟩
  | .rdDdSkip sub => ⟨busCode 0#4 0x024#10 sub, 0#32⟩
  | .rdTapAddr sub => ⟨busCode 0#4 0x040#10 sub, 0#32⟩
  | .rdTapData sub => ⟨busCode 0#4 0x041#10 sub, 0#32⟩
  | .wrId sub v => ⟨busCode 1#4 0x000#10 sub, v⟩
  | .wrCtrl sub v => ⟨busCode 1#4 0x001#10 sub, v⟩
  | .wrStatus sub v => ⟨busCode 1#4 0x002#10 sub, v⟩
  | .wrIrqEn sub v => ⟨busCode 1#4 0x003#10 sub, v⟩
  | .wrInCount sub v => ⟨busCode 1#4 0x004#10 sub, v⟩
  | .wrAudCount sub v => ⟨busCode 1#4 0x005#10 sub, v⟩
  | .wrSymCount sub v => ⟨busCode 1#4 0x006#10 sub, v⟩
  | .wrBitCount sub v => ⟨busCode 1#4 0x007#10 sub, v⟩
  | .wrRxFreq sub v => ⟨busCode 1#4 0x008#10 sub, v⟩
  | .wrRxPhase sub v => ⟨busCode 1#4 0x009#10 sub, v⟩
  | .wrRxOmega sub v => ⟨busCode 1#4 0x00A#10 sub, v⟩
  | .wrRxMu sub v => ⟨busCode 1#4 0x00B#10 sub, v⟩
  | .wrCsInc sub v => ⟨busCode 1#4 0x010#10 sub, v⟩
  | .wrCsDecim sub v => ⟨busCode 1#4 0x011#10 sub, v⟩
  | .wrCsNtaps sub v => ⟨busCode 1#4 0x012#10 sub, v⟩
  | .wrFmdGain sub v => ⟨busCode 1#4 0x014#10 sub, v⟩
  | .wrFmdDecim sub v => ⟨busCode 1#4 0x015#10 sub, v⟩
  | .wrFmdNtaps sub v => ⟨busCode 1#4 0x016#10 sub, v⟩
  | .wrFmdAlpha sub v => ⟨busCode 1#4 0x017#10 sub, v⟩
  | .wrTmInc sub v => ⟨busCode 1#4 0x018#10 sub, v⟩
  | .wrTmDecim sub v => ⟨busCode 1#4 0x019#10 sub, v⟩
  | .wrTmNtaps sub v => ⟨busCode 1#4 0x01A#10 sub, v⟩
  | .wrRxOmegaMid sub v => ⟨busCode 1#4 0x01C#10 sub, v⟩
  | .wrRxOmegaRel sub v => ⟨busCode 1#4 0x01D#10 sub, v⟩
  | .wrRxGainMu sub v => ⟨busCode 1#4 0x01E#10 sub, v⟩
  | .wrRxGainOmega sub v => ⟨busCode 1#4 0x01F#10 sub, v⟩
  | .wrRxAlpha sub v => ⟨busCode 1#4 0x020#10 sub, v⟩
  | .wrRxBeta sub v => ⟨busCode 1#4 0x021#10 sub, v⟩
  | .wrRxFmin sub v => ⟨busCode 1#4 0x022#10 sub, v⟩
  | .wrRxFmax sub v => ⟨busCode 1#4 0x023#10 sub, v⟩
  | .wrDdSkip sub v => ⟨busCode 1#4 0x024#10 sub, v⟩
  | .wrTapAddr sub v => ⟨busCode 1#4 0x040#10 sub, v⟩
  | .wrTapData sub v => ⟨busCode 1#4 0x041#10 sub, v⟩
  | .rdUnmapped addr => ⟨0#4 ++ addr, 0#32⟩
  | .wrUnmapped addr v => ⟨1#4 ++ addr, v⟩
  | .pushIq i q => ⟨0x2000#16, 0#16 ++ q ++ i⟩
  | .popAud => ⟨0x2001#16, 0#32⟩
  | .pushAud v => ⟨0x2002#16, v⟩
  | .popBit => ⟨0x2003#16, 0#32⟩
  | .fireMix0 => ⟨0x3000#16, 0#32⟩
  | .fireFir0 => ⟨0x3001#16, 0#32⟩
  | .fireQd => ⟨0x3002#16, 0#32⟩
  | .fireFir1 => ⟨0x3003#16, 0#32⟩
  | .fireDe => ⟨0x3004#16, 0#32⟩
  | .fireMix1 => ⟨0x3005#16, 0#32⟩
  | .fireFir2 => ⟨0x3006#16, 0#32⟩
  | .fireRx => ⟨0x3007#16, 0#32⟩
  | .fireDd => ⟨0x3008#16, 0#32⟩

/-- The transaction whose bits are `w` of `nbits` bits, every further bit 0: the code in bits 15..0, the payload in
bits 47..16 (the model's own numbering, notes/assumptions/8). -/
def txnOfWord (nbits w : Nat) : Txn :=
  ⟨BitVec.ofNat 16 (w % 2 ^ nbits), BitVec.ofNat 32 (w % 2 ^ nbits / 2 ^ 16)⟩

/-- The operation the decoder reads from a table row's word. -/
def decodeTableWord (nbits w : Nat) : Option Instr :=
  match decode (txnOfWord nbits w) with
  | .ok i => some i
  | .error _ => none

end Sys2Proof
end

