-- ==== Sys2Proof/Config.lean ====
section
/-! DEFINITION. What the spec leaves to an implementation (00_scope.md R6, R11; 42_decimating_fir.md R204;
93_implementation_defined.md items 1 to 4 and 11) and the free values of the model. Every constant here is opaque
and has no body: no proof can see which value it has, so a theorem of this model holds for every choice. The
definitions that turn the raw constants into admissible parameters stand at the end (capacities) and in
Machine/Numerics.lean (the record `Num`). -/

namespace Sys2Proof

/-- One less than `FIFO_DEPTH`, the capacity of each channel (R6, R76: any value at least 1; notes/assumptions/6). -/
opaque Config.fifoDepthLessOne : Nat

/-- What `NTAPS_MAX` is made from (R6: any value 1..65535; notes/assumptions/6). -/
opaque Config.ntapsRaw : Nat

/-- The implementation's `Num.cos_turn` before R11's listed properties are imposed (notes/assumptions/4). -/
opaque Config.cosTurnRaw : Word → F32

/-- The implementation's `Num.sin_turn` before R11's listed properties are imposed (notes/assumptions/4). -/
opaque Config.sinTurnRaw : Word → F32

/-- The implementation's `Num.cos` before R11's listed properties are imposed (notes/assumptions/4). -/
opaque Config.cosRaw : F32 → F32

/-- The implementation's `Num.sin` before R11's listed properties are imposed (notes/assumptions/4). -/
opaque Config.sinRaw : F32 → F32

/-- The implementation's `Num.atan2` before R11's listed properties are imposed (notes/assumptions/4). -/
opaque Config.atan2Raw : F32 → F32 → F32

/-- `FIR_DOT` (R204): one lane's inner product, a function of the taps `h[0], h[1], …` and of the window (newest
sample first) only (notes/assumptions/5). -/
opaque Config.firDot : List F32 → List F32 → F32

/-- The free choice among the enabled firings (R78: "the choice is free"), drawn afresh from the counter
`State.choice` (notes/assumptions/2). -/
opaque Config.pickUnit : Nat → Nat

/-- `floor` of a value that is not finite, which R10 does not define (no reachable state asks for it, R271;
notes/assumptions/12). -/
opaque Config.floorNonFinite : F32 → Int

/-- Where the loops of `wrap` (R267) would still run after 64 turns: no reachable state gets there
(notes/assumptions/12). -/
opaque Config.wrapUnsettled : F32 → F32

/-- `(ph + 1) mod 0` of R201: no reachable state has a decimation of 0 in RUN (R331; notes/assumptions/12). -/
opaque Config.phaseModZero : Half → Half

/-- `FIFO_DEPTH` of R6 and R76, at least 1. -/
def Config.fifoDepth : Nat := Config.fifoDepthLessOne + 1

/-- `NTAPS_MAX` of R6 and R63, between 1 and 65535. -/
def Config.ntapsMax : Nat := Config.ntapsRaw % 65535 + 1

end Sys2Proof
end

