-- ==== Sys2Proof/Machine/State.lean ====
section
/-! DEFINITION. The state of the core (10_state.md R30: the global control state, the register file, the tap banks,
each unit's datapath state, the eleven channels) and the model's own fields (what the outside will do next, what the
last read or pop returned, the free choice), as plain data; the ways a step can stop; the state after reset. -/

namespace Sys2Proof.Machine

/-- `STATE` (R33), encoded in STATUS[1:0] as 0, 1, 2 in this order; value 3 is never taken. -/
inductive Mode where
  | idle
  | run
  | error
deriving DecidableEq, Repr

/-- The nine units of R2, in the order of their firing codes (R102). -/
inductive UnitId where
  | mix0
  | fir0
  | qd
  | fir1
  | de
  | mix1
  | fir2
  | rx
  | dd
deriving DecidableEq, Repr

/-- The CFG and CFG16 configuration registers (R34, R42 to R60). A CFG16 register holds bits [15:0] only (R35). -/
structure CfgRegs where
  csInc : Word
  csDecim : Half
  csNtaps : Half
  fmdGain : F32
  fmdDecim : Half
  fmdNtaps : Half
  fmdAlpha : F32
  tmInc : Word
  tmDecim : Half
  tmNtaps : Half
  rxOmegaMid : F32
  rxOmegaRel : F32
  rxGainMu : F32
  rxGainOmega : F32
  rxAlpha : F32
  rxBeta : F32
  rxFmin : F32
  rxFmax : F32
  ddSkip : Half
deriving DecidableEq, Repr

/-- The four counters of R40. -/
structure Counters where
  inCount : Word
  audCount : Word
  symCount : Word
  bitCount : Word
deriving DecidableEq, Repr

/-- The tap space (R63, R70): a list of (address, entry) pairs, where entry `INDEX` of bank `BANK` stands at the address
`{BANK, INDEX}` that TAP_ADDR reads (R61). An address not listed reads `+0`, the reset value of R63. -/
abbrev Memory := List (Nat × F32)

/-- The one canonical form of a memory: addresses strictly rising, no entry equal to what an unlisted address reads. -/
abbrev Memory.wf (m : Memory) : Prop :=
  m.Pairwise (fun a b => a.1 < b.1) ∧ ∀ c ∈ m, c.2 ≠ 0#32

/-- A FIR instance's datapath state (R64, R200). `dl` lists the delay line from its newest entry; an entry beyond the
list reads zero (notes/assumptions/11). -/
structure Fir (α : Type) where
  dl : List α
  fill : Half
  ph : Half
deriving DecidableEq, Repr

/-- QD's datapath state (R64, R231). -/
structure Qd where
  prev : C32
  havePrev : Bool
deriving DecidableEq, Repr

/-- RX's datapath state (R64, R260). -/
structure Rx where
  phi : F32
  f : F32
  omega : F32
  mu : F32
  wait : Word
  xp : C32
  xc : C32
  zp : C32
  cp : F32
  havePrev : Bool
  fsatNow : Bool
deriving DecidableEq, Repr

/-- DD's datapath state (R64, R310). -/
structure Dd where
  zp : C32
  havePrev : Bool
  skipLeft : Half
deriving DecidableEq, Repr

/-- The datapath state of the nine units (R64). -/
structure Datapath where
  mix0Acc : Word
  fir0 : Fir C32
  qd : Qd
  fir1 : Fir F32
  deY : F32
  mix1Acc : Word
  fir2 : Fir C32
  rx : Rx
  dd : Dd
deriving DecidableEq, Repr

/-- The "reset" column of R64. -/
def Datapath.cleared : Datapath where
  mix0Acc := 0#32
  fir0 := ⟨[], 0#16, 0#16⟩
  qd := ⟨C32.zero, false⟩
  fir1 := ⟨[], 0#16, 0#16⟩
  deY := 0#32
  mix1Acc := 0#32
  fir2 := ⟨[], 0#16, 0#16⟩
  rx :=
    { phi := 0#32, f := 0#32, omega := 0#32, mu := 0#32, wait := 1#32, xp := C32.zero, xc := C32.zero,
      zp := C32.zero, cp := 0x3F800000#32, havePrev := false, fsatNow := false }
  dd := ⟨C32.zero, false, 0#16⟩

/-- The eleven channels of R65, each oldest element first. -/
structure Channels where
  iq : List Half
  mx0 : List C32
  f0 : List C32
  qd : List F32
  f1 : List F32
  aout : List F32
  ain : List F32
  mx1 : List C32
  f2 : List C32
  rx : List C32
  bit : List Byte
deriving DecidableEq, Repr

/-- Every channel empty (R65). -/
def Channels.empty : Channels := ⟨[], [], [], [], [], [], [], [], [], [], []⟩

/-- What a bus read (R140, R149, R152) or a pop beat (R155, R157) returns to the host. -/
inductive Returned where
  | bus (v : Word)
  | aud (v : F32)
  | bit (v : Byte)
deriving DecidableEq, Repr

/-- One thing the outside lets happen next: a transaction of R100, or the hard reset input asserted and released
(R370; notes/assumptions/16). -/
inductive Event where
  | txn (t : Txn)
  | hardReset
deriving DecidableEq, Repr

/-- How the machine stops. -/
inductive Fault where
  /-- No agent has an enabled step: the scheduled transaction, if there is one, waits, and no unit's firing is enabled
  (R78, 93_implementation_defined.md item 15: "The step does not exist in that state"). Raised by `coreMove`. Safe: the
  model stops where the hardware holds still until the outside does something else. -/
  | noStep
deriving DecidableEq, Repr

/-- How the model declines a transaction. -/
inductive Refusal where
  /-- An operation without a meaning; raised only by an arm of `exec` that names one, and no arm does. Safe. -/
  | notModelled (mnemonic : String)
  /-- A reserved transaction code (R105: "a model refuses it (it has no step)"). Raised by `step`. Safe. -/
  | reservedCode (why : ReservedCode)
deriving DecidableEq, Repr

/-- The machine's state. The fields up to `ch` are the spec's (R30); `pending`, `ret` and `choice` are the model's own. -/
structure State where
  /-- `STATE` (R33). -/
  mode : Mode
  /-- `ERR_CODE`, STATUS[7:4] (R33, R38). -/
  errCode : BitVec 4
  /-- Sticky flag FSAT, STATUS[8] (R38, R66). -/
  fsat : Bool
  /-- Sticky flag OSAT, STATUS[9] (R38, R66). -/
  osat : Bool
  /-- Sticky flag NANS, STATUS[10] (R38, R66). -/
  nans : Bool
  /-- IRQ_EN[3:0] (R39). -/
  irqEn : BitVec 4
  /-- The counters (R40). -/
  cnt : Counters
  /-- The configuration registers (R42 to R60). -/
  cfg : CfgRegs
  /-- TAP_ADDR.BANK (R61). -/
  tapBank : BitVec 2
  /-- TAP_ADDR.INDEX (R61). -/
  tapIndex : Half
  /-- The tap banks (R63). -/
  taps : Memory
  /-- The units' datapath state (R64). -/
  dp : Datapath
  /-- The channels (R65). -/
  ch : Channels
  /-- The model's own: the steps the outside schedules, the next one first (notes/assumptions/1). -/
  pending : List Event
  /-- The model's own: what the last completed read or pop returned (notes/assumptions/3). -/
  ret : Option Returned
  /-- The model's own: how many free choices have been drawn (notes/assumptions/2). -/
  choice : Nat
deriving DecidableEq, Repr

/-- The configuration registers' "reset" column of R34. -/
def CfgRegs.atReset : CfgRegs where
  csInc := 0#32
  csDecim := 0#16
  csNtaps := 0#16
  fmdGain := 0#32
  fmdDecim := 0#16
  fmdNtaps := 0#16
  fmdAlpha := 0#32
  tmInc := 0#32
  tmDecim := 4#16
  tmNtaps := 0#16
  rxOmegaMid := 0#32
  rxOmegaRel := 0x3BA3D70A#32
  rxGainMu := 0x3C661278#32
  rxGainOmega := 0x38D03CCF#32
  rxAlpha := 0x3DAE1322#32
  rxBeta := 0x3B777C6A#32
  rxFmin := 0xBE800000#32
  rxFmax := 0x3E800000#32
  ddSkip := 0#16

/-- The machine after hard reset (R370), with nothing scheduled, nothing returned and no choice drawn. -/
def State.reset : State where
  mode := .idle
  errCode := 0#4
  fsat := false
  osat := false
  nans := false
  irqEn := 0#4
  cnt := ⟨0#32, 0#32, 0#32, 0#32⟩
  cfg := CfgRegs.atReset
  tapBank := 0#2
  tapIndex := 0#16
  taps := []
  dp := Datapath.cleared
  ch := Channels.empty
  pending := []
  ret := none
  choice := 0

end Sys2Proof.Machine
end

