-- ==== Sys2Proof/Machine/Flags.lean ====
section
/-! DEFINITION. The status conditions: `irq`, BUSY and the STATUS word (10_state.md R38, R68; 20_memory.md R79), and how
the sticky flags are set and cleared (R14, 40_host_interface.md R146). -/

namespace Sys2Proof.Machine

/-- A flag as one bit. -/
def flagBit (b : Bool) : BitVec 1 := BitVec.ofBool b

/-- The encoding of `STATE` in STATUS[1:0] (R33). -/
def modeBits (m : Mode) : BitVec 2 :=
  match m with
  | .idle => 0#2
  | .run => 1#2
  | .error => 2#2

/-- The level of the `irq` output (R68). -/
def irq (s : State) : Bool :=
  (s.irqEn.getLsbD 0 && s.fsat) || (s.irqEn.getLsbD 1 && s.osat) || (s.irqEn.getLsbD 2 && s.nans) ||
    (s.irqEn.getLsbD 3 && s.mode == .error)

/-- STATUS.BUSY (R79): one of the nine channels other than `ch_aout` and `ch_bit` holds a value. -/
def busy (s : State) : Bool :=
  !(s.ch.iq.isEmpty && s.ch.mx0.isEmpty && s.ch.f0.isEmpty && s.ch.qd.isEmpty && s.ch.f1.isEmpty &&
    s.ch.ain.isEmpty && s.ch.mx1.isEmpty && s.ch.f2.isEmpty && s.ch.rx.isEmpty)

/-- The word STATUS reads (R38, R140). -/
def statusWord (s : State) : Word :=
  0#20 ++ flagBit s.dp.rx.fsatNow ++ flagBit s.nans ++ flagBit s.osat ++ flagBit s.fsat ++ s.errCode ++
    flagBit (irq s) ++ flagBit (busy s) ++ modeBits s.mode

/-- The sticky flags after the conditions one RX firing met (R14, R334). -/
def raiseFlags (s : State) (fsat osat nans : Bool) : State :=
  { s with fsat := s.fsat || fsat, osat := s.osat || osat, nans := s.nans || nans }

/-- The write of STATUS: a one in bit 8, 9 or 10 clears FSAT, OSAT or NANS (R146). -/
def clearFlags (s : State) (v : Word) : State :=
  { s with
    fsat := s.fsat && !v.getLsbD 8
    osat := s.osat && !v.getLsbD 9
    nans := s.nans && !v.getLsbD 10 }

end Sys2Proof.Machine
end

