-- ==== Sys2Proof/Machine/Ops.lean ====
section
/-! DEFINITION. The named operations the meanings share: the tap space, the channels' space, completing a transaction,
the configuration failure of START (60_exceptions.md R332) and the resets that leave it (70_reset_and_hazards.md R370,
R371; 60_exceptions.md R333). -/

namespace Sys2Proof.Machine

/-- What an outcome of this model's step is. -/
abbrev Result := Host.Outcome State Fault Refusal

/-! ### The tap space (R63, R70) -/

/-- What an address of the tap space reads; an address not listed reads `+0` (R63). -/
def memRead (m : Memory) (a : Nat) : F32 :=
  match m with
  | [] => 0#32
  | c :: rest => if c.1 = a then c.2 else memRead rest a

/-- The memory after an entry is written, in canonical form again. -/
def memWrite (m : Memory) (a : Nat) (v : F32) : Memory :=
  match m with
  | [] => if v = 0#32 then [] else [(a, v)]
  | c :: rest =>
    if a < c.1 then (if v = 0#32 then c :: rest else (a, v) :: c :: rest)
    else if a = c.1 then (if v = 0#32 then rest else (a, v) :: rest)
    else c :: memWrite rest a v

/-- The address `{BANK, INDEX}` of an entry (R61). -/
def tapAddress (bank : Nat) (index : Nat) : Nat := bank * 2 ^ 16 + index

/-- Whether BANK and INDEX select an entry: `BANK <= 2 and INDEX < NTAPS_MAX` (R62). -/
def tapSelected (bank : BitVec 2) (index : Half) : Bool :=
  decide (bank.toNat ≤ 2) && decide (index.toNat < Config.ntapsMax)

/-- `Tap(b, i)` where the pair selects an entry, else 0 (R62, R149). -/
def tapRead (m : Memory) (bank : BitVec 2) (index : Half) : F32 :=
  if tapSelected bank index then memRead m (tapAddress bank.toNat index.toNat) else 0#32

/-- `TapWrite(b, i, v)` where the pair selects an entry, else nothing (R62, R150). -/
def tapWrite (m : Memory) (bank : BitVec 2) (index : Half) (v : F32) : Memory :=
  if tapSelected bank index then memWrite m (tapAddress bank.toNat index.toNat) v else m

/-- The taps `Tap(b, 0), …, Tap(b, n - 1)` a FIR reads (R202). -/
def tapList (m : Memory) (bank n : Nat) : List F32 :=
  (List.range n).map (fun j => memRead m (tapAddress bank j))

/-! ### The channels (R76) -/

/-- Whether a channel holding `n` elements takes another: `len(ch) < FIFO_DEPTH`. -/
def hasSpace (n : Nat) : Bool := decide (n < Config.fifoDepth)

/-! ### Completing a transaction -/

/-- The scheduled step is done: the next one stands first. -/
def retire (s : State) : State := { s with pending := s.pending.tail }

/-- A transaction that returns nothing completes in the state `s`. -/
def complete (s : State) : Result := .next (retire s)

/-- A read or a pop completes in the state `s` and returns `r`. -/
def answer (r : Returned) (s : State) : Result := .next (retire { s with ret := some r })

/-- `INDEX <- (INDEX + 1) mod 2^16` (R62). -/
def advanceIndex (s : State) : State := { s with tapIndex := s.tapIndex + 1#16 }

/-! ### The failure of START and the ways back (R332, R333) -/

/-- `raise ConfigError(code)` (R13, R332): `STATE <- ERROR`, `ERR_CODE <- code`, nothing else changes. -/
def raiseConfigError (code : BitVec 4) (s : State) : State := { s with mode := .error, errCode := code }

/-- `soft_reset()` (R371): leaves RUN or the error state for IDLE and keeps configuration, taps, IRQ_EN and TAP_ADDR. -/
def softReset (s : State) : State :=
  { s with
    ch := Channels.empty
    dp := Datapath.cleared
    cnt := ⟨0#32, 0#32, 0#32, 0#32⟩
    fsat := false
    osat := false
    nans := false
    errCode := 0#4
    mode := .idle }

/-- `hard_reset()` (R370): every piece of the core's state at its reset value. What the outside schedules, what it was
last answered and the free choices drawn are not the core's. -/
def hardReset (s : State) : State :=
  { State.reset with pending := s.pending, ret := s.ret, choice := s.choice }

end Sys2Proof.Machine
end

