-- ==== Sys2Proof/Machine/Operands.lean ====
section
/-! DEFINITION. The operand forms: what a register reads as (40_host_interface.md R140), what a write stores by access
class (10_state.md R35, 40_host_interface.md R141), and the fields of the words a transaction carries. -/

namespace Sys2Proof.Machine

/-- The constant the ID register reads (R36): "FMDC". -/
def idWord : Word := 0x464D4443#32

/-- The low half of write data, all a CFG16 register stores (R35, R111). -/
def lowHalf (v : Word) : Half := v.extractLsb' 0 16

/-- A bus read of a register without side effects returns `v` (R140). -/
def readReg (v : Word) (s : State) : Result := answer (.bus v) s

/-- A CFG16 register reads zero-extended (R35, R140). -/
def readHalf (v : Half) (s : State) : Result := answer (.bus (v.setWidth 32)) s

/-- A write of a configuration register: stored unless RUN, where it does nothing (R35, R67, R141). -/
def writeCfg (new : CfgRegs) (s : State) : Result :=
  if s.mode = .run then complete s else complete { s with cfg := new }

/-- A write that does nothing (R151). -/
def writeIgnored (s : State) : Result := complete s

/-- The word TAP_ADDR reads: `zext_32({BANK[1:0], INDEX[15:0]})` (R61, R140). -/
def tapAddrWord (s : State) : Word := 0#14 ++ s.tapBank ++ s.tapIndex

/-- The IQ_IN element `{Q[7:0], I[7:0]}` (R72, R106). -/
def iqElement (i q : Byte) : Half := q ++ i

/-- The I byte of an IQ_IN element, bits [7:0] (R106). -/
def iByte (w : Half) : Byte := w.extractLsb' 0 8

/-- The Q byte of an IQ_IN element, bits [15:8] (R106). -/
def qByte (w : Half) : Byte := w.extractLsb' 8 8

end Sys2Proof.Machine
end

