-- ==== Sys2Proof/Machine/BusRead.lean ====
section
/-! DEFINITION. The bus reads (40_host_interface.md R140, R149, R152). Every one is enabled in every STATE and cannot
fail; only RD_TAP_DATA has a side effect (20_memory.md R75). -/

namespace Sys2Proof.Machine

/-- `RD_ID` (R36, R140). -/
def execRdId (_sub : BitVec 2) (s : State) : Result := readReg idWord s

/-- `RD_CTRL` (R37, R140). -/
def execRdCtrl (_sub : BitVec 2) (s : State) : Result := readReg 0#32 s

/-- `RD_STATUS` (R38, R140). -/
def execRdStatus (_sub : BitVec 2) (s : State) : Result := readReg (statusWord s) s

/-- `RD_IRQ_EN` (R39, R140). -/
def execRdIrqEn (_sub : BitVec 2) (s : State) : Result := readReg (s.irqEn.setWidth 32) s

/-- `RD_IN_COUNT` (R40, R140). -/
def execRdInCount (_sub : BitVec 2) (s : State) : Result := readReg s.cnt.inCount s

/-- `RD_AUD_COUNT` (R40, R140). -/
def execRdAudCount (_sub : BitVec 2) (s : State) : Result := readReg s.cnt.audCount s

/-- `RD_SYM_COUNT` (R40, R140). -/
def execRdSymCount (_sub : BitVec 2) (s : State) : Result := readReg s.cnt.symCount s

/-- `RD_BIT_COUNT` (R40, R140). -/
def execRdBitCount (_sub : BitVec 2) (s : State) : Result := readReg s.cnt.bitCount s

/-- `RD_RX_FREQ` (R41, R140). -/
def execRdRxFreq (_sub : BitVec 2) (s : State) : Result := readReg s.dp.rx.f s

/-- `RD_RX_PHASE` (R41, R140). -/
def execRdRxPhase (_sub : BitVec 2) (s : State) : Result := readReg s.dp.rx.phi s

/-- `RD_RX_OMEGA` (R41, R140). -/
def execRdRxOmega (_sub : BitVec 2) (s : State) : Result := readReg s.dp.rx.omega s

/-- `RD_RX_MU` (R41, R140). -/
def execRdRxMu (_sub : BitVec 2) (s : State) : Result := readReg s.dp.rx.mu s

/-- `RD_CS_INC` (R42, R140). -/
def execRdCsInc (_sub : BitVec 2) (s : State) : Result := readReg s.cfg.csInc s

/-- `RD_CS_DECIM` (R43, R140). -/
def execRdCsDecim (_sub : BitVec 2) (s : State) : Result := readHalf s.cfg.csDecim s

/-- `RD_CS_NTAPS` (R44, R140). -/
def execRdCsNtaps (_sub : BitVec 2) (s : State) : Result := readHalf s.cfg.csNtaps s

/-- `RD_FMD_GAIN` (R45, R140). -/
def execRdFmdGain (_sub : BitVec 2) (s : State) : Result := readReg s.cfg.fmdGain s

/-- `RD_FMD_DECIM` (R46, R140). -/
def execRdFmdDecim (_sub : BitVec 2) (s : State) : Result := readHalf s.cfg.fmdDecim s

/-- `RD_FMD_NTAPS` (R47, R140). -/
def execRdFmdNtaps (_sub : BitVec 2) (s : State) : Result := readHalf s.cfg.fmdNtaps s

/-- `RD_FMD_ALPHA` (R48, R140). -/
def execRdFmdAlpha (_sub : BitVec 2) (s : State) : Result := readReg s.cfg.fmdAlpha s

/-- `RD_TM_INC` (R49, R140). -/
def execRdTmInc (_sub : BitVec 2) (s : State) : Result := readReg s.cfg.tmInc s

/-- `RD_TM_DECIM` (R50, R140). -/
def execRdTmDecim (_sub : BitVec 2) (s : State) : Result := readHalf s.cfg.tmDecim s

/-- `RD_TM_NTAPS` (R51, R140). -/
def execRdTmNtaps (_sub : BitVec 2) (s : State) : Result := readHalf s.cfg.tmNtaps s

/-- `RD_RX_OMEGA_MID` (R52, R140). -/
def execRdRxOmegaMid (_sub : BitVec 2) (s : State) : Result := readReg s.cfg.rxOmegaMid s

/-- `RD_RX_OMEGA_REL` (R53, R140). -/
def execRdRxOmegaRel (_sub : BitVec 2) (s : State) : Result := readReg s.cfg.rxOmegaRel s

/-- `RD_RX_GAIN_MU` (R54, R140). -/
def execRdRxGainMu (_sub : BitVec 2) (s : State) : Result := readReg s.cfg.rxGainMu s

/-- `RD_RX_GAIN_OMEGA` (R55, R140). -/
def execRdRxGainOmega (_sub : BitVec 2) (s : State) : Result := readReg s.cfg.rxGainOmega s

/-- `RD_RX_ALPHA` (R56, R140). -/
def execRdRxAlpha (_sub : BitVec 2) (s : State) : Result := readReg s.cfg.rxAlpha s

/-- `RD_RX_BETA` (R57, R140). -/
def execRdRxBeta (_sub : BitVec 2) (s : State) : Result := readReg s.cfg.rxBeta s

/-- `RD_RX_FMIN` (R58, R140). -/
def execRdRxFmin (_sub : BitVec 2) (s : State) : Result := readReg s.cfg.rxFmin s

/-- `RD_RX_FMAX` (R59, R140). -/
def execRdRxFmax (_sub : BitVec 2) (s : State) : Result := readReg s.cfg.rxFmax s

/-- `RD_DD_SKIP` (R60, R140). -/
def execRdDdSkip (_sub : BitVec 2) (s : State) : Result := readHalf s.cfg.ddSkip s

/-- `RD_TAP_ADDR` (R61, R140). -/
def execRdTapAddr (_sub : BitVec 2) (s : State) : Result := readReg (tapAddrWord s) s

/-- `RD_TAP_DATA` (R62, R149): one tap is returned, INDEX advances. -/
def execRdTapData (_sub : BitVec 2) (s : State) : Result :=
  answer (.bus (tapRead s.taps s.tapBank s.tapIndex)) (advanceIndex s)

/-- `RD_UNMAPPED` (R152). -/
def execRdUnmapped (_addr : BitVec 12) (s : State) : Result := readReg 0#32 s

end Sys2Proof.Machine
end

