-- ==== Sys2Proof/Machine/Float.lean ====
section
/-! DEFINITION. IEEE-754 binary32 on bit patterns (00_scope.md R8 to R10). Every finite value is a whole number of units
of 2^-149, so each operation is computed exactly on integers and rounded once, to nearest, ties to even, with gradual
underflow. Nothing is fused, and a NaN result is the one quiet NaN of R9. -/

namespace Sys2Proof.Machine

/-- The quiet NaN of R9. -/
def qnan : F32 := 0x7FC00000#32

/-- `ONE` of R12. -/
def fone : F32 := 0x3F800000#32

/-- `-1.0`. -/
def fnegOne : F32 := 0xBF800000#32

/-- `PI32` of R12. -/
def pi32 : F32 := 0x40490FDB#32

/-- `TWOPI32` of R12. -/
def twoPi32 : F32 := 0x40C90FDB#32

/-- `HALFPI32` of R12. -/
def halfPi32 : F32 := 0x3FC90FDB#32

/-- The sign bit (R71). -/
def fsign (a : F32) : Bool := a.msb

/-- The pattern without its sign bit, as a number. -/
def fmag (a : F32) : Nat := a.toNat % 2 ^ 31

/-- `isnan` of R10. -/
def fnan (a : F32) : Bool := decide (0x7F800000 < fmag a)

/-- Whether the value is an infinity. -/
def finf (a : F32) : Bool := decide (fmag a = 0x7F800000)

/-- `isfinite` of R10. -/
def ffinite (a : F32) : Bool := decide (fmag a < 0x7F800000)

/-- Whether the value is a zero of either sign. -/
def fzero (a : F32) : Bool := decide (fmag a = 0)

/-- `-a` of R9: the sign bit flipped. -/
def fneg (a : F32) : F32 := a ^^^ 0x80000000#32

/-- `|a|` of R11: the sign bit cleared. -/
def fabs (a : F32) : F32 := a &&& 0x7FFFFFFF#32

/-- A finite magnitude pattern in units of 2^-149: a subnormal is its fraction, a normal number its significand shifted
by its exponent (R71). -/
def magUnits (m : Nat) : Nat :=
  if m / 2 ^ 23 = 0 then m else (2 ^ 23 + m % 2 ^ 23) * 2 ^ (m / 2 ^ 23 - 1)

/-- A finite value in units of 2^-149, exactly. -/
def fval (a : F32) : Int :=
  if fsign a then -(magUnits (fmag a) : Int) else (magUnits (fmag a) : Int)

/-- The magnitude pattern of `p / q` units of 2^-149 (`q > 0`), rounded to nearest, ties to even (R8); the infinity's
pattern when it is too large. The shift keeps 24 significant bits; a carry out of them raises the exponent by itself. -/
def roundMag (p q : Nat) : Nat :=
  let shift := Nat.log2 (p / q) - 23
  let unit := q * 2 ^ shift
  let m := p / unit
  let r := p % unit
  let up : Nat := if unit < 2 * r ∨ (2 * r = unit ∧ m % 2 = 1) then 1 else 0
  min (shift * 2 ^ 23 + m + up) 0x7F800000

/-- A sign and a magnitude pattern put together. -/
def fpack (neg : Bool) (m : Nat) : F32 := BitVec.ofNat 32 (if neg then 2 ^ 31 + m else m)

/-- 2^149: how many units of 2^-149 make 1. -/
def unitsPerOne : Nat := 2 ^ 149

/-- `a + b` of R9. -/
def fadd (a b : F32) : F32 :=
  if fnan a || fnan b then qnan
  else if finf a then (if finf b && (fsign a != fsign b) then qnan else a)
  else if finf b then b
  else
    let n := fval a + fval b
    if n = 0 then fpack (fsign a && fsign b) 0
    else fpack (decide (n < 0)) (roundMag n.natAbs 1)

/-- `a - b` of R9. -/
def fsub (a b : F32) : F32 := fadd a (fneg b)

/-- `a * b` of R9. -/
def fmul (a b : F32) : F32 :=
  let neg := fsign a != fsign b
  if fnan a || fnan b then qnan
  else if finf a || finf b then (if fzero a || fzero b then qnan else fpack neg 0x7F800000)
  else fpack neg (roundMag (magUnits (fmag a) * magUnits (fmag b)) unitsPerOne)

/-- `a / b` of R9. No unit of the core divides. -/
def fdiv (a b : F32) : F32 :=
  let neg := fsign a != fsign b
  if fnan a || fnan b then qnan
  else if finf a then (if finf b then qnan else fpack neg 0x7F800000)
  else if finf b then fpack neg 0
  else if fzero b then (if fzero a then qnan else fpack neg 0x7F800000)
  else fpack neg (roundMag (magUnits (fmag a) * unitsPerOne) (magUnits (fmag b)))

/-- The order of non-NaN patterns, both zeros alike (R10). -/
def ford (a : F32) : Int := if fsign a then -(fmag a : Int) else (fmag a : Int)

/-- `a < b` of R10. -/
def flt (a b : F32) : Bool := !fnan a && !fnan b && decide (ford a < ford b)

/-- `a > b` of R10. -/
def fgt (a b : F32) : Bool := flt b a

/-- `a <= b` of R10. -/
def fle (a b : F32) : Bool := !fnan a && !fnan b && decide (ford a ≤ ford b)

/-- `a == b` of R10. -/
def feq (a b : F32) : Bool := !fnan a && !fnan b && decide (ford a = ford b)

/-- `clamp` of R10. -/
def fclamp (v lo hi : F32) : F32 := if flt v lo then lo else if fgt v hi then hi else v

/-- `clip1` of R10. -/
def clip1 (v : F32) : F32 := if fnan v then 0#32 else fclamp v fnegOne fone

/-- `f32` of the fraction `p / q` (R8), one rounding; the sign is `neg`. -/
def fofFrac (neg : Bool) (p q : Nat) : F32 := fpack neg (roundMag (p * unitsPerOne) q)

/-- `f32` of an integer (R8). -/
def fofInt (n : Int) : F32 := fofFrac (decide (n < 0)) n.natAbs 1

end Sys2Proof.Machine
end

