-- ==== Sys2Proof/Machine/Control.lean ====
section
/-! DEFINITION. START: the configuration check (60_exceptions.md R331) and what a successful START initialises
(40_host_interface.md R143). -/

namespace Sys2Proof.Machine

/-- A tap count is out of `1..NTAPS_MAX` (R331 codes 2, 4, 6). -/
def badNtaps (ntapsMax : Nat) (n : Half) : Bool := n = 0#16 || decide (ntapsMax < n.toNat)

/-- The ten binary32 registers code 7 reads (R331). -/
def checkedFloats (c : CfgRegs) : List F32 :=
  [c.fmdGain, c.fmdAlpha, c.rxOmegaMid, c.rxOmegaRel, c.rxGainMu, c.rxGainOmega, c.rxAlpha, c.rxBeta, c.rxFmin,
   c.rxFmax]

/-- The four loop gains code 10 reads (R331). -/
def loopGains (c : CfgRegs) : List F32 := [c.rxGainMu, c.rxGainOmega, c.rxAlpha, c.rxBeta]

/-- `RX_OMEGA_MID·(1 - RX_OMEGA_REL) - RX_GAIN_MU < 1.5`, exactly (R331 code 11): each side in units of 2^-298. -/
def stepTooShort (c : CfgRegs) : Bool :=
  let one : Int := unitsPerOne
  decide (2 * (fval c.rxOmegaMid * (one - fval c.rxOmegaRel) - fval c.rxGainMu * one) < 3 * (one * one))

/-- `check_config()` (R331): the code of the first check that fails, or 0. Comparisons are exact, in units of 2^-149. -/
def checkConfig (ntapsMax : Nat) (c : CfgRegs) : BitVec 4 :=
  let one : Int := unitsPerOne
  if c.csDecim = 0#16 then 1#4
  else if badNtaps ntapsMax c.csNtaps then 2#4
  else if c.fmdDecim = 0#16 then 3#4
  else if badNtaps ntapsMax c.fmdNtaps then 4#4
  else if c.tmDecim = 0#16 then 5#4
  else if badNtaps ntapsMax c.tmNtaps then 6#4
  else if (checkedFloats c).any (fun v => !ffinite v) then 7#4
  else if fval c.fmdGain ≤ 0 ∨ fval c.fmdAlpha ≤ 0 ∨ one < fval c.fmdAlpha then 8#4
  else if fval c.rxOmegaRel < 0 ∨ one < 2 * fval c.rxOmegaRel then 9#4
  else if (loopGains c).any (fun v => decide (fval v < 0) || decide (2 * one < fval v)) then 10#4
  else if 2 ^ 20 * one < fval c.rxOmegaMid ∨ stepTooShort c then 11#4
  else if fval c.rxFmax < fval c.rxFmin ∨ fval c.rxFmin < fval (fneg pi32) ∨ fval pi32 < fval c.rxFmax then 12#4
  else 0#4

/-- The START column of R64 for a configuration: the reset column but for RX's `omega` and DD's `skip_left` (R372). -/
def startDatapath (c : CfgRegs) : Datapath :=
  { Datapath.cleared with
    rx := { Datapath.cleared.rx with omega := c.rxOmegaMid }
    dd := { Datapath.cleared.dd with skipLeft := c.ddSkip } }

/-- What a START whose check passes does (R143). -/
def startRun (s : State) : State :=
  { s with
    ch := Channels.empty
    dp := startDatapath s.cfg
    cnt := ⟨0#32, 0#32, 0#32, 0#32⟩
    fsat := false
    osat := false
    nans := false
    errCode := 0#4
    mode := .run }

/-- START (R143). -/
def start (s : State) : State :=
  let code := checkConfig Config.ntapsMax s.cfg
  if code ≠ 0#4 then raiseConfigError code s else startRun s

/-- The command a write of CTRL gives (R37, R142): SOFT_RESET wins; START in RUN is ignored. -/
def command (v : Word) (s : State) : State :=
  if v.getLsbD 1 then softReset s
  else if v.getLsbD 0 then (if s.mode = .run then s else start s)
  else s

end Sys2Proof.Machine
end

