-- ==== Sys2Proof/Machine/BusWrite.lean ====
section
/-! DEFINITION. The bus writes (40_host_interface.md R141, R142, R146 to R148, R150, R151). Every one is enabled in every
STATE and cannot fail. -/

namespace Sys2Proof.Machine

/-- `WR_ID`, a read-only register (R36, R151). -/
def execWrId (_sub : BitVec 2) (_v : Word) (s : State) : Result := writeIgnored s

/-- `WR_CTRL` (R37, R142): SOFT_RESET, START, or nothing; CTRL stores nothing. -/
def execWrCtrl (_sub : BitVec 2) (v : Word) (s : State) : Result := complete (command v s)

/-- `WR_STATUS` (R38, R146): clears the sticky flags whose bit is 1. -/
def execWrStatus (_sub : BitVec 2) (v : Word) (s : State) : Result := complete (clearFlags s v)

/-- `WR_IRQ_EN` (R39, R147). -/
def execWrIrqEn (_sub : BitVec 2) (v : Word) (s : State) : Result :=
  complete { s with irqEn := v.extractLsb' 0 4 }

/-- `WR_IN_COUNT`, a read-only register (R40, R151). -/
def execWrInCount (_sub : BitVec 2) (_v : Word) (s : State) : Result := writeIgnored s

/-- `WR_AUD_COUNT`, a read-only register (R40, R151). -/
def execWrAudCount (_sub : BitVec 2) (_v : Word) (s : State) : Result := writeIgnored s

/-- `WR_SYM_COUNT`, a read-only register (R40, R151). -/
def execWrSymCount (_sub : BitVec 2) (_v : Word) (s : State) : Result := writeIgnored s

/-- `WR_BIT_COUNT`, a read-only register (R40, R151). -/
def execWrBitCount (_sub : BitVec 2) (_v : Word) (s : State) : Result := writeIgnored s

/-- `WR_RX_FREQ`, a read-only register (R41, R151). -/
def execWrRxFreq (_sub : BitVec 2) (_v : Word) (s : State) : Result := writeIgnored s

/-- `WR_RX_PHASE`, a read-only register (R41, R151). -/
def execWrRxPhase (_sub : BitVec 2) (_v : Word) (s : State) : Result := writeIgnored s

/-- `WR_RX_OMEGA`, a read-only register (R41, R151). -/
def execWrRxOmega (_sub : BitVec 2) (_v : Word) (s : State) : Result := writeIgnored s

/-- `WR_RX_MU`, a read-only register (R41, R151). -/
def execWrRxMu (_sub : BitVec 2) (_v : Word) (s : State) : Result := writeIgnored s

/-- `WR_CS_INC` (R42, R141). -/
def execWrCsInc (_sub : BitVec 2) (v : Word) (s : State) : Result :=
  writeCfg { s.cfg with csInc := v } s

/-- `WR_CS_DECIM` (R43, R141). -/
def execWrCsDecim (_sub : BitVec 2) (v : Word) (s : State) : Result :=
  writeCfg { s.cfg with csDecim := lowHalf v } s

/-- `WR_CS_NTAPS` (R44, R141). -/
def execWrCsNtaps (_sub : BitVec 2) (v : Word) (s : State) : Result :=
  writeCfg { s.cfg with csNtaps := lowHalf v } s

/-- `WR_FMD_GAIN` (R45, R141). -/
def execWrFmdGain (_sub : BitVec 2) (v : Word) (s : State) : Result :=
  writeCfg { s.cfg with fmdGain := v } s

/-- `WR_FMD_DECIM` (R46, R141). -/
def execWrFmdDecim (_sub : BitVec 2) (v : Word) (s : State) : Result :=
  writeCfg { s.cfg with fmdDecim := lowHalf v } s

/-- `WR_FMD_NTAPS` (R47, R141). -/
def execWrFmdNtaps (_sub : BitVec 2) (v : Word) (s : State) : Result :=
  writeCfg { s.cfg with fmdNtaps := lowHalf v } s

/-- `WR_FMD_ALPHA` (R48, R141). -/
def execWrFmdAlpha (_sub : BitVec 2) (v : Word) (s : State) : Result :=
  writeCfg { s.cfg with fmdAlpha := v } s

/-- `WR_TM_INC` (R49, R141). -/
def execWrTmInc (_sub : BitVec 2) (v : Word) (s : State) : Result :=
  writeCfg { s.cfg with tmInc := v } s

/-- `WR_TM_DECIM` (R50, R141). -/
def execWrTmDecim (_sub : BitVec 2) (v : Word) (s : State) : Result :=
  writeCfg { s.cfg with tmDecim := lowHalf v } s

/-- `WR_TM_NTAPS` (R51, R141). -/
def execWrTmNtaps (_sub : BitVec 2) (v : Word) (s : State) : Result :=
  writeCfg { s.cfg with tmNtaps := lowHalf v } s

/-- `WR_RX_OMEGA_MID` (R52, R141). -/
def execWrRxOmegaMid (_sub : BitVec 2) (v : Word) (s : State) : Result :=
  writeCfg { s.cfg with rxOmegaMid := v } s

/-- `WR_RX_OMEGA_REL` (R53, R141). -/
def execWrRxOmegaRel (_sub : BitVec 2) (v : Word) (s : State) : Result :=
  writeCfg { s.cfg with rxOmegaRel := v } s

/-- `WR_RX_GAIN_MU` (R54, R141). -/
def execWrRxGainMu (_sub : BitVec 2) (v : Word) (s : State) : Result :=
  writeCfg { s.cfg with rxGainMu := v } s

/-- `WR_RX_GAIN_OMEGA` (R55, R141). -/
def execWrRxGainOmega (_sub : BitVec 2) (v : Word) (s : State) : Result :=
  writeCfg { s.cfg with rxGainOmega := v } s

/-- `WR_RX_ALPHA` (R56, R141). -/
def execWrRxAlpha (_sub : BitVec 2) (v : Word) (s : State) : Result :=
  writeCfg { s.cfg with rxAlpha := v } s

/-- `WR_RX_BETA` (R57, R141). -/
def execWrRxBeta (_sub : BitVec 2) (v : Word) (s : State) : Result :=
  writeCfg { s.cfg with rxBeta := v } s

/-- `WR_RX_FMIN` (R58, R141). -/
def execWrRxFmin (_sub : BitVec 2) (v : Word) (s : State) : Result :=
  writeCfg { s.cfg with rxFmin := v } s

/-- `WR_RX_FMAX` (R59, R141). -/
def execWrRxFmax (_sub : BitVec 2) (v : Word) (s : State) : Result :=
  writeCfg { s.cfg with rxFmax := v } s

/-- `WR_DD_SKIP` (R60, R141). -/
def execWrDdSkip (_sub : BitVec 2) (v : Word) (s : State) : Result :=
  writeCfg { s.cfg with ddSkip := lowHalf v } s

/-- `WR_TAP_ADDR` (R61, R148). -/
def execWrTapAddr (_sub : BitVec 2) (v : Word) (s : State) : Result :=
  complete { s with tapBank := v.extractLsb' 16 2, tapIndex := lowHalf v }

/-- `WR_TAP_DATA` (R62, R150): one tap is stored and INDEX advances; in RUN nothing happens. -/
def execWrTapData (_sub : BitVec 2) (v : Word) (s : State) : Result :=
  if s.mode = .run then complete s
  else complete (advanceIndex { s with taps := tapWrite s.taps s.tapBank s.tapIndex v })

/-- `WR_UNMAPPED` (R151). -/
def execWrUnmapped (_addr : BitVec 12) (_v : Word) (s : State) : Result := writeIgnored s

end Sys2Proof.Machine
end

