-- ==== Sys2Proof/Machine/Numerics.lean ====
section
/-! DEFINITION. The numerics record `Num` as the parameter it is (00_scope.md R11, 93_implementation_defined.md item 1)
and the two partial functions of R10 and R267 made total by free values. -/

namespace Sys2Proof.Machine

/-- The record `Num` of R11. -/
structure Num where
  cosTurn : Word → F32
  sinTurn : Word → F32
  cos : F32 → F32
  sin : F32 → F32
  atan2 : F32 → F32 → F32

/-- `v` brought into `[lo, hi]`: the values R11's range properties allow. A value already there stays. -/
def within (lo hi v : F32) : F32 := if fnan v then 0#32 else fclamp v lo hi

/-- `Num.cos_turn` with R11's special cases and range. -/
def admitCosTurn (raw : Word → F32) (a : Word) : F32 :=
  if a = 0#32 then fone
  else if a = 0x40000000#32 then 0#32
  else if a = 0x80000000#32 then fnegOne
  else if a = 0xC0000000#32 then 0#32
  else within fnegOne fone (raw a)

/-- `Num.sin_turn` with R11's special cases and range. -/
def admitSinTurn (raw : Word → F32) (a : Word) : F32 :=
  if a = 0#32 then 0#32
  else if a = 0x40000000#32 then fone
  else if a = 0x80000000#32 then 0#32
  else if a = 0xC0000000#32 then fnegOne
  else within fnegOne fone (raw a)

/-- `Num.cos` with R11's special case. -/
def admitCos (raw : F32 → F32) (x : F32) : F32 := if fzero x then fone else raw x

/-- `Num.sin` with R11's special cases. -/
def admitSin (raw : F32 → F32) (x : F32) : F32 := if fzero x then x else raw x

/-- A magnitude with the sign of `y`. -/
def withSignOf (y m : F32) : F32 := if fsign y then fneg m else m

/-- `Num.atan2` with R11's special cases and ranges. -/
def admitAtan2 (raw : F32 → F32 → F32) (y x : F32) : F32 :=
  if fnan y || fnan x then qnan
  else if fzero y && fzero x then withSignOf y (if fsign x then pi32 else 0#32)
  else if fzero y && fsign x then withSignOf y pi32
  else if fzero x then withSignOf y halfPi32
  else if fsign x then within (fneg pi32) pi32 (raw y x)
  else within (fneg halfPi32) halfPi32 (raw y x)

/-- The admissible record made from five raw functions. Every admissible record is made from its own functions. -/
def numAdmitting (cosTurn sinTurn : Word → F32) (cos sin : F32 → F32) (atan2 : F32 → F32 → F32) : Num where
  cosTurn := admitCosTurn cosTurn
  sinTurn := admitSinTurn sinTurn
  cos := admitCos cos
  sin := admitSin sin
  atan2 := admitAtan2 atan2

/-- The implementation's `Num` (R6, R11). -/
def num : Num :=
  numAdmitting Config.cosTurnRaw Config.sinTurnRaw Config.cosRaw Config.sinRaw Config.atan2Raw

/-- `floor` of R10; of a value that is not finite, a free value. -/
def ffloor (a : F32) : Int :=
  if ffinite a then fval a / (unitsPerOne : Int) else Config.floorNonFinite a

/-- `while p > PI32: p <- p - TWOPI32` (R267), for at most `fuel` turns. -/
def wrapDown (fuel : Nat) (p : F32) : F32 :=
  match fuel with
  | 0 => if fgt p pi32 then Config.wrapUnsettled p else p
  | n + 1 => if fgt p pi32 then wrapDown n (fsub p twoPi32) else p

/-- `while p < -PI32: p <- p + TWOPI32` (R267), for at most `fuel` turns. -/
def wrapUp (fuel : Nat) (p : F32) : F32 :=
  match fuel with
  | 0 => if flt p (fneg pi32) then Config.wrapUnsettled p else p
  | n + 1 => if flt p (fneg pi32) then wrapUp n (fadd p twoPi32) else p

/-- `wrap` of R267. In every reachable state at most two turns run; 64 are modelled. -/
def wrap (p : F32) : F32 := wrapUp 64 (wrapDown 64 p)

end Sys2Proof.Machine
end

