-- ==== Sys2Proof/Machine/Fir.lean ====
section
/-! DEFINITION. The decimating_polyphase_fir units FIR0, FIR1 and FIR2 (42_decimating_fir.md). -/

namespace Sys2Proof.Machine

/-- The delay line after `x` is accepted (R201): entries `0..N-1` shift, the oldest drops out, the rest stay. -/
def firShift {α : Type} (n : Nat) (dl : List α) (x : α) : List α :=
  x :: (dl.take (n - 1) ++ dl.drop (max n 1))

/-- The entries `dl[0..N-1]`, newest first (R200); an entry beyond the list is `zero`. -/
def firWindow {α : Type} (zero : α) (n : Nat) (dl : List α) : List α :=
  (List.range n).map (fun j => dl.getD j zero)

/-- `(ph + 1) mod D` (R201). `D = 0` never runs (R331); there it is a free value. -/
def nextPhase (d ph : Half) : Half :=
  if d = 0#16 then Config.phaseModZero ph else BitVec.ofNat 16 ((ph.toNat + 1) % d.toNat)

/-- One FIR instance accepts a sample (R201): its new state, and the window of the output it emits, if it emits one. -/
def firAccept {α : Type} (zero : α) (n d : Half) (u : Fir α) (x : α) : Fir α × Option (List α) :=
  let dl := firShift n.toNat u.dl x
  let fill := if u.fill.toNat < n.toNat then u.fill + 1#16 else u.fill
  if fill = n then
    (⟨dl, fill, nextPhase d u.ph⟩, if u.ph = 0#16 then some (firWindow zero n.toNat dl) else none)
  else (⟨dl, fill, u.ph⟩, none)

/-- The reference inner product of R202: the sequential sum from `+0`, newest sample first, two roundings a term. -/
def firDotReference (taps window : List F32) : F32 :=
  (taps.zip window).foldl (fun acc p => fadd acc (fmul p.1 p.2)) 0#32

/-- The output of a two-lane instance, each lane by itself (R202, R204). -/
def firDotC (dot : List F32 → List F32 → F32) (taps : List F32) (window : List C32) : C32 :=
  ⟨dot taps (window.map C32.re), dot taps (window.map C32.im)⟩

/-- What a firing that may emit nothing pushes (R201). -/
def pushed {α : Type} (out : Option α) : List α := out.toList

/-- `FIRE_FIR0`'s effect (R201, R205). -/
def fireFir0 (s : State) : State :=
  match s.ch.mx0 with
  | [] => s
  | x :: rest =>
    let r := firAccept C32.zero s.cfg.csNtaps s.cfg.csDecim s.dp.fir0 x
    let out := r.2.map (firDotC Config.firDot (tapList s.taps 0 s.cfg.csNtaps.toNat))
    { s with
      ch := { s.ch with mx0 := rest, f0 := s.ch.f0 ++ pushed out }
      dp := { s.dp with fir0 := r.1 } }

/-- `FIRE_FIR1`'s effect (R201, R205, R235). -/
def fireFir1 (s : State) : State :=
  match s.ch.qd with
  | [] => s
  | x :: rest =>
    let r := firAccept 0#32 s.cfg.fmdNtaps s.cfg.fmdDecim s.dp.fir1 x
    let out := r.2.map (Config.firDot (tapList s.taps 1 s.cfg.fmdNtaps.toNat))
    { s with
      ch := { s.ch with qd := rest, f1 := s.ch.f1 ++ pushed out }
      dp := { s.dp with fir1 := r.1 } }

/-- `FIRE_FIR2`'s effect (R201, R205). -/
def fireFir2 (s : State) : State :=
  match s.ch.mx1 with
  | [] => s
  | x :: rest =>
    let r := firAccept C32.zero s.cfg.tmNtaps s.cfg.tmDecim s.dp.fir2 x
    let out := r.2.map (firDotC Config.firDot (tapList s.taps 2 s.cfg.tmNtaps.toNat))
    { s with
      ch := { s.ch with mx1 := rest, f2 := s.ch.f2 ++ pushed out }
      dp := { s.dp with fir2 := r.1 } }

end Sys2Proof.Machine
end

