-- ==== Sys2Proof/Machine/Decoder.lean ====
section
/-! DEFINITION. The differential_decoder_slicer DD (46_diff_decoder_slicer.md). -/

namespace Sys2Proof.Machine

/-- `Re(z · conj(zp))` (R312). -/
def diffProduct (z zp : C32) : F32 := fadd (fmul z.re zp.re) (fmul z.im zp.im)

/-- The slicer: a positive product is bit 1, anything else bit 0 (R311). -/
def slice (p : F32) : Byte := if fgt p 0#32 then 1#8 else 0#8

/-- DD accepts a symbol (R311): its new state and the bit it emits, none for the first symbol and for a suppressed
bit (R313). -/
def ddAccept (u : Dd) (z : C32) : Dd × Option Byte :=
  if u.havePrev then
    if u.skipLeft ≠ 0#16 then (⟨z, true, u.skipLeft - 1#16⟩, none)
    else (⟨z, true, u.skipLeft⟩, some (slice (diffProduct z u.zp)))
  else (⟨z, true, u.skipLeft⟩, none)

/-- `FIRE_DD`'s effect (R311): BIT_COUNT counts an emitted bit (R40). -/
def fireDd (s : State) : State :=
  match s.ch.rx with
  | [] => s
  | z :: rest =>
    let r := ddAccept s.dp.dd z
    { s with
      ch := { s.ch with rx := rest, bit := s.ch.bit ++ pushed r.2 }
      dp := { s.dp with dd := r.1 }
      cnt := { s.cnt with bitCount := if r.2.isSome then s.cnt.bitCount + 1#32 else s.cnt.bitCount } }

end Sys2Proof.Machine
end

