-- ==== Sys2Proof/Machine/Demod.lean ====
section
/-! DEFINITION. The FM demodulator's discriminator QD and de-emphasis DE (43_fm_demodulator.md). -/

namespace Sys2Proof.Machine

/-- `w = x · conj(p)` (R232), whose angle is the phase step from `p` to `x` (R234). DESIGN CHOICE (notes/assumptions/24):
the corner case of R232 has a zero sample give `w = 0` and the output `G · (+0)`, but by its pseudocode and R9 a zero beside
an infinite or NaN sample gives NaN lanes (`0 · inf`, `0 · NaN`); the model follows the pseudocode. -/
def conjProduct (x p : C32) : C32 :=
  ⟨fadd (fmul x.re p.re) (fmul x.im p.im), fsub (fmul x.im p.re) (fmul x.re p.im)⟩

/-- The principal-value angle in `(-π, π]` (R233). -/
def carg (n : Num) (w : C32) : F32 :=
  if fzero w.re && fzero w.im then 0#32
  else
    let t := n.atan2 w.im w.re
    if feq t (fneg pi32) then pi32 else t

/-- QD accepts a sample (R232): its new state and the sample it emits, none for the first. The sample is the gain times the
phase step from the sample before, which R234 reads as the frequency in fractions of `max_dev`. -/
def qdAccept (n : Num) (gain : F32) (u : Qd) (x : C32) : Qd × Option F32 :=
  (⟨x, true⟩, if u.havePrev then some (fmul gain (carg n (conjProduct x u.prev))) else none)

/-- One step of the de-emphasis filter (R236). -/
def deEmphasis (alpha y x : F32) : F32 := fadd y (fmul alpha (fsub x y))

/-- `FIRE_QD`'s effect (R232). -/
def fireQd (s : State) : State :=
  match s.ch.f0 with
  | [] => s
  | x :: rest =>
    let r := qdAccept num s.cfg.fmdGain s.dp.qd x
    { s with
      ch := { s.ch with f0 := rest, qd := s.ch.qd ++ pushed r.2 }
      dp := { s.dp with qd := r.1 } }

/-- `FIRE_DE`'s effect (R236). -/
def fireDe (s : State) : State :=
  match s.ch.f1 with
  | [] => s
  | x :: rest =>
    let y := deEmphasis s.cfg.fmdAlpha s.dp.deY x
    { s with
      ch := { s.ch with f1 := rest, aout := s.ch.aout ++ [y] }
      dp := { s.dp with deY := y }
      cnt := { s.cnt with audCount := s.cnt.audCount + 1#32 } }

end Sys2Proof.Machine
end

