-- ==== Sys2Proof/Machine/Mixer.lean ====
section
/-! DEFINITION. The complex_mixer units MIX0 and MIX1 (41_complex_mixer.md). The firings' effects are functions of the
state; Machine/Schedule.lean says when one is enabled and Machine/Fire.lean makes them operations. -/

namespace Sys2Proof.Machine

/-- The local oscillator at accumulator `a` (R181). -/
def oscillator (n : Num) (a : Word) : C32 := ⟨n.cosTurn a, n.sinTurn a⟩

/-- Complex multiplication (R185). -/
def cmul (x l : C32) : C32 :=
  ⟨fsub (fmul x.re l.re) (fmul x.im l.im), fadd (fmul x.re l.im) (fmul x.im l.re)⟩

/-- The byte-to-sample conversion `f32((2·u - 255) / 255)` (R183). -/
def convByte (u : Byte) : F32 :=
  if 255 ≤ 2 * u.toNat then fofFrac false (2 * u.toNat - 255) 255
  else fofFrac true (255 - 2 * u.toNat) 255

/-- The complex sample of an IQ_IN element, I then Q (R182). -/
def iqSample (w : Half) : C32 := ⟨convByte (iByte w), convByte (qByte w)⟩

/-- A real sample as in-phase with zero quadrature (R184). -/
def realSample (a : F32) : C32 := ⟨a, 0#32⟩

/-- `FIRE_MIX0`'s effect (R182). -/
def fireMix0 (s : State) : State :=
  match s.ch.iq with
  | [] => s
  | w :: rest =>
    { s with
      ch := { s.ch with iq := rest, mx0 := s.ch.mx0 ++ [cmul (iqSample w) (oscillator num s.dp.mix0Acc)] }
      dp := { s.dp with mix0Acc := s.dp.mix0Acc + s.cfg.csInc } }

/-- `FIRE_MIX1`'s effect (R184). -/
def fireMix1 (s : State) : State :=
  match s.ch.ain with
  | [] => s
  | a :: rest =>
    { s with
      ch := { s.ch with ain := rest, mx1 := s.ch.mx1 ++ [cmul (realSample a) (oscillator num s.dp.mix1Acc)] }
      dp := { s.dp with mix1Acc := s.dp.mix1Acc + s.cfg.tmInc } }

end Sys2Proof.Machine
end

