-- ==== Sys2Proof/Machine/Receiver.lean ====
section
/-! DEFINITION. The receiver RX: the costas_loop_phase_tracker (44_costas_loop.md) and the
mueller_muller_timing_recovery (45_mm_timing.md), one firing. -/

namespace Sys2Proof.Machine

/-- Step 1, the two-point linear interpolant at `n - 1 + mu` (R291), by the rule's formula. DESIGN CHOICE
(notes/assumptions/19): at `mu = +0` the prose of R291 has a `-0` lane of `xp` become `+0`, but by the formula and R9 it
stays `-0` where the lane of `xc` has its sign set (`-0 + -0`); the model follows the formula. -/
def interpolate (mu : F32) (xp xc : C32) : C32 :=
  let w0 := fsub fone mu
  ⟨fadd (fmul w0 xp.re) (fmul mu xc.re), fadd (fmul w0 xp.im) (fmul mu xc.im)⟩

/-- Step 2, `z = y · exp(-i·φ)` (R262). -/
def derotate (n : Num) (phi : F32) (y : C32) : C32 :=
  let c := n.cos phi
  let s := n.sin phi
  ⟨fadd (fmul y.re c) (fmul y.im s), fsub (fmul y.im c) (fmul y.re s)⟩

/-- The decision: `+1` when `z.re > 0`, else `-1` (R263). -/
def decision (z : C32) : F32 := if fgt z.re 0#32 then fone else fnegOne

/-- The raw Mueller-and-Müller timing error, `+0` at the first symbol (R295). -/
def timingError (havePrev : Bool) (cp : F32) (zp : C32) (c : F32) (z : C32) : F32 :=
  if havePrev then fsub (fmul cp z.re) (fmul c zp.re) else 0#32

/-- `lo` of R292. -/
def omegaLo (mid rel : F32) : F32 := fsub mid (fmul mid rel)

/-- `hi` of R292. -/
def omegaHi (mid rel : F32) : F32 := fadd mid (fmul mid rel)

/-- The raw phase error, the angle of `z` from its decision (R264). -/
def phaseError (n : Num) (c : F32) (z : C32) : F32 := n.atan2 (fmul c z.im) (fabs z.re)

/-- A NaN error becomes `+0` (R270). -/
def sanitise (e : F32) : F32 := if fnan e then 0#32 else e

/-- Whether `v` lies outside `[lo, hi]` (R266, R292). -/
def outside (v lo hi : F32) : Bool := flt v lo || fgt v hi

/-- What one RX firing yields: the unit's state, the symbol it emits if any, and the conditions it met (R66, R261). -/
structure RxStep where
  rx : Rx
  symbol : Option C32
  fsat : Bool
  osat : Bool
  nans : Bool
deriving DecidableEq, Repr

/-- A symbol instant (R261, steps 1 to 5), `r` holding the accepted sample already. DESIGN CHOICE (notes/assumptions/23):
46_diff_decoder_slicer.md R315 has `f` and `phi` change sign when RX's input is conjugated and `Num` has its symmetries,
but R261 and R266 clamp `f` to `[RX_FMIN, RX_FMAX]`, which R331 lets differ from `[-RX_FMAX, RX_FMAX]`; the model
follows the clamp, so R315's second half holds of it only for bounds that are each other's negations. -/
def rxSymbol (n : Num) (g : CfgRegs) (r : Rx) : RxStep :=
  let z := derotate n r.phi (interpolate r.mu r.xp r.xc)
  let c := decision z
  let etRaw := timingError r.havePrev r.cp r.zp c z
  let et := clip1 etRaw
  let lo := omegaLo g.rxOmegaMid g.rxOmegaRel
  let hi := omegaHi g.rxOmegaMid g.rxOmegaRel
  let w1 := fadd r.omega (fmul g.rxGainOmega et)
  let omega := fclamp w1 lo hi
  let m1 := fadd r.mu (fadd omega (fmul g.rxGainMu et))
  let a := ffloor m1
  let epRaw := phaseError n c z
  let ep := sanitise epRaw
  let f1 := fadd r.f (fmul g.rxBeta ep)
  let fsatNow := outside f1 g.rxFmin g.rxFmax
  { rx :=
      { r with
        phi := fadd r.phi (fmul g.rxAlpha ep)
        f := fclamp f1 g.rxFmin g.rxFmax
        omega := omega
        mu := fsub m1 (fofInt a)
        wait := BitVec.ofInt 32 (a - 1)
        zp := z
        cp := c
        havePrev := true
        fsatNow := fsatNow }
    symbol := some z
    fsat := fsatNow
    osat := outside w1 lo hi
    nans := fnan etRaw || fnan epRaw }

/-- RX accepts a sample (R261): a symbol when `wait` is 0, else one sample less to wait; then the phase advances by the
frequency and wraps (R267). -/
def rxAccept (n : Num) (g : CfgRegs) (r : Rx) (x : C32) : RxStep :=
  let held := { r with xp := r.xc, xc := x }
  let out : RxStep :=
    if r.wait = 0#32 then rxSymbol n g held
    else { rx := { held with wait := r.wait - 1#32 }, symbol := none, fsat := false, osat := false, nans := false }
  { out with rx := { out.rx with phi := wrap (fadd out.rx.phi out.rx.f) } }

/-- `FIRE_RX`'s effect (R261): SYM_COUNT counts an emitted symbol (R40). -/
def fireRx (s : State) : State :=
  match s.ch.f2 with
  | [] => s
  | x :: rest =>
    let r := rxAccept num s.cfg s.dp.rx x
    raiseFlags
      { s with
        ch := { s.ch with f2 := rest, rx := s.ch.rx ++ pushed r.symbol }
        dp := { s.dp with rx := r.rx }
        cnt := { s.cnt with symCount := if r.symbol.isSome then s.cnt.symCount + 1#32 else s.cnt.symCount } }
      r.fsat r.osat r.nans

end Sys2Proof.Machine
end

