-- ==== Sys2Proof/Machine/Schedule.lean ====
section
/-! DEFINITION. Which firing is enabled (20_memory.md R78), the effect of each, and what moves when the scheduled step
waits (93_implementation_defined.md items 11 and 15; notes/assumptions/2). -/

namespace Sys2Proof.Machine

/-- `len(in_U)` (R77). -/
def inLength (u : UnitId) (c : Channels) : Nat :=
  match u with
  | .mix0 => c.iq.length
  | .fir0 => c.mx0.length
  | .qd => c.f0.length
  | .fir1 => c.qd.length
  | .de => c.f1.length
  | .mix1 => c.ain.length
  | .fir2 => c.mx1.length
  | .rx => c.f2.length
  | .dd => c.rx.length

/-- `len(out_U)` (R77). -/
def outLength (u : UnitId) (c : Channels) : Nat :=
  match u with
  | .mix0 => c.mx0.length
  | .fir0 => c.f0.length
  | .qd => c.qd.length
  | .fir1 => c.f1.length
  | .de => c.aout.length
  | .mix1 => c.mx1.length
  | .fir2 => c.f2.length
  | .rx => c.rx.length
  | .dd => c.bit.length

/-- A firing is enabled exactly when `STATE == RUN`, `len(in_U) > 0` and `len(out_U) < FIFO_DEPTH` (R78). -/
def enabled (u : UnitId) (s : State) : Bool :=
  decide (s.mode = .run) && decide (0 < inLength u s.ch) && hasSpace (outLength u s.ch)

/-- The effect of a unit's firing. -/
def fireUnit (u : UnitId) (s : State) : State :=
  match u with
  | .mix0 => fireMix0 s
  | .fir0 => fireFir0 s
  | .qd => fireQd s
  | .fir1 => fireFir1 s
  | .de => fireDe s
  | .mix1 => fireMix1 s
  | .fir2 => fireFir2 s
  | .rx => fireRx s
  | .dd => fireDd s

/-- The nine units (R102). -/
def allUnits : List UnitId := [.mix0, .fir0, .qd, .fir1, .de, .mix1, .fir2, .rx, .dd]

/-- The units whose firing is enabled. -/
def enabledUnits (s : State) : List UnitId := allUnits.filter (fun u => enabled u s)

/-- The core moves by itself: one enabled firing, by free choice (R5, R78, R102). Where none is enabled there is no
step. -/
def coreMove (s : State) : Result :=
  match enabledUnits s with
  | [] => .fault .noStep
  | u :: us =>
    .next (fireUnit ((u :: us).getD (Config.pickUnit s.choice % (u :: us).length) u)
      { s with choice := s.choice + 1 })

/-- The scheduled step is not enabled: its agent waits, the step stays scheduled, and the core moves meanwhile
(40_host_interface.md R153: "the beat has no step (the port is not ready); the host waits"). -/
def waitTurn (s : State) : Result := coreMove s

end Sys2Proof.Machine
end

