-- ==== Sys2Proof/Machine/Fire.lean ====
section
/-! DEFINITION. The unit firings as scheduled steps (30_encoding.md R102). A firing that is not enabled waits (R78). -/

namespace Sys2Proof.Machine

/-- A scheduled firing of `u` with the effect `fired`: it happens where it is enabled (R78), else the unit waits. -/
def scheduledFire (u : UnitId) (fired : State) (s : State) : Result :=
  if enabled u s then complete fired else waitTurn s

/-- `FIRE_MIX0` (R182). -/
def execFireMix0 (s : State) : Result := scheduledFire .mix0 (fireMix0 s) s

/-- `FIRE_FIR0` (R201). -/
def execFireFir0 (s : State) : Result := scheduledFire .fir0 (fireFir0 s) s

/-- `FIRE_QD` (R232). -/
def execFireQd (s : State) : Result := scheduledFire .qd (fireQd s) s

/-- `FIRE_FIR1` (R201). -/
def execFireFir1 (s : State) : Result := scheduledFire .fir1 (fireFir1 s) s

/-- `FIRE_DE` (R236). -/
def execFireDe (s : State) : Result := scheduledFire .de (fireDe s) s

/-- `FIRE_MIX1` (R184). -/
def execFireMix1 (s : State) : Result := scheduledFire .mix1 (fireMix1 s) s

/-- `FIRE_FIR2` (R201). -/
def execFireFir2 (s : State) : Result := scheduledFire .fir2 (fireFir2 s) s

/-- `FIRE_RX` (R261). -/
def execFireRx (s : State) : Result := scheduledFire .rx (fireRx s) s

/-- `FIRE_DD` (R311). -/
def execFireDd (s : State) : Result := scheduledFire .dd (fireDd s) s

end Sys2Proof.Machine
end

