-- ==== Sys2Proof/Machine/Stream.lean ====
section
/-! DEFINITION. The stream beats (40_host_interface.md R153, R155 to R157). A beat whose port is not ready waits. -/

namespace Sys2Proof.Machine

/-- Whether an input port takes a beat: `STATE == RUN` and space in its channel (R153, R156). -/
def portAccepts (s : State) (held : Nat) : Bool := decide (s.mode = .run) && hasSpace held

/-- `PUSH_IQ` (R106, R153): IN_COUNT counts the accepted beat. -/
def execPushIq (i q : Byte) (s : State) : Result :=
  if portAccepts s s.ch.iq.length then
    complete
      { s with
        ch := { s.ch with iq := s.ch.iq ++ [iqElement i q] }
        cnt := { s.cnt with inCount := s.cnt.inCount + 1#32 } }
  else waitTurn s

/-- `POP_AUD` (R155). -/
def execPopAud (s : State) : Result :=
  match s.ch.aout with
  | [] => waitTurn s
  | v :: rest => answer (.aud v) { s with ch := { s.ch with aout := rest } }

/-- `PUSH_AUD` (R156). -/
def execPushAud (v : F32) (s : State) : Result :=
  if portAccepts s s.ch.ain.length then complete { s with ch := { s.ch with ain := s.ch.ain ++ [v] } }
  else waitTurn s

/-- `POP_BIT` (R157). -/
def execPopBit (s : State) : Result :=
  match s.ch.bit with
  | [] => waitTurn s
  | v :: rest => answer (.bit v) { s with ch := { s.ch with bit := rest } }

end Sys2Proof.Machine
end

