-- ==== Sys2Proof/Machine/Dispatch.lean ====
section
/-! DEFINITION. The meaning of every operation, one arm per constructor (30_encoding.md R104). -/

namespace Sys2Proof.Machine

def exec (i : Instr) (s : State) : Host.Outcome State Fault Refusal :=
  match i with
  | .rdId sub => Sys2Proof.Machine.execRdId sub s
  | .rdCtrl sub => Sys2Proof.Machine.execRdCtrl sub s
  | .rdStatus sub => Sys2Proof.Machine.execRdStatus sub s
  | .rdIrqEn sub => Sys2Proof.Machine.execRdIrqEn sub s
  | .rdInCount sub => Sys2Proof.Machine.execRdInCount sub s
  | .rdAudCount sub => Sys2Proof.Machine.execRdAudCount sub s
  | .rdSymCount sub => Sys2Proof.Machine.execRdSymCount sub s
  | .rdBitCount sub => Sys2Proof.Machine.execRdBitCount sub s
  | .rdRxFreq sub => Sys2Proof.Machine.execRdRxFreq sub s
  | .rdRxPhase sub => Sys2Proof.Machine.execRdRxPhase sub s
  | .rdRxOmega sub => Sys2Proof.Machine.execRdRxOmega sub s
  | .rdRxMu sub => Sys2Proof.Machine.execRdRxMu sub s
  | .rdCsInc sub => Sys2Proof.Machine.execRdCsInc sub s
  | .rdCsDecim sub => Sys2Proof.Machine.execRdCsDecim sub s
  | .rdCsNtaps sub => Sys2Proof.Machine.execRdCsNtaps sub s
  | .rdFmdGain sub => Sys2Proof.Machine.execRdFmdGain sub s
  | .rdFmdDecim sub => Sys2Proof.Machine.execRdFmdDecim sub s
  | .rdFmdNtaps sub => Sys2Proof.Machine.execRdFmdNtaps sub s
  | .rdFmdAlpha sub => Sys2Proof.Machine.execRdFmdAlpha sub s
  | .rdTmInc sub => Sys2Proof.Machine.execRdTmInc sub s
  | .rdTmDecim sub => Sys2Proof.Machine.execRdTmDecim sub s
  | .rdTmNtaps sub => Sys2Proof.Machine.execRdTmNtaps sub s
  | .rdRxOmegaMid sub => Sys2Proof.Machine.execRdRxOmegaMid sub s
  | .rdRxOmegaRel sub => Sys2Proof.Machine.execRdRxOmegaRel sub s
  | .rdRxGainMu sub => Sys2Proof.Machine.execRdRxGainMu sub s
  | .rdRxGainOmega sub => Sys2Proof.Machine.execRdRxGainOmega sub s
  | .rdRxAlpha sub => Sys2Proof.Machine.execRdRxAlpha sub s
  | .rdRxBeta sub => Sys2Proof.Machine.execRdRxBeta sub s
  | .rdRxFmin sub => Sys2Proof.Machine.execRdRxFmin sub s
  | .rdRxFmax sub => Sys2Proof.Machine.execRdRxFmax sub s
  | .rdDdSkip sub => Sys2Proof.Machine.execRdDdSkip sub s
  | .rdTapAddr sub => Sys2Proof.Machine.execRdTapAddr sub s
  | .rdTapData sub => Sys2Proof.Machine.execRdTapData sub s
  | .wrId sub v => Sys2Proof.Machine.execWrId sub v s
  | .wrCtrl sub v => Sys2Proof.Machine.execWrCtrl sub v s
  | .wrStatus sub v => Sys2Proof.Machine.execWrStatus sub v s
  | .wrIrqEn sub v => Sys2Proof.Machine.execWrIrqEn sub v s
  | .wrInCount sub v => Sys2Proof.Machine.execWrInCount sub v s
  | .wrAudCount sub v => Sys2Proof.Machine.execWrAudCount sub v s
  | .wrSymCount sub v => Sys2Proof.Machine.execWrSymCount sub v s
  | .wrBitCount sub v => Sys2Proof.Machine.execWrBitCount sub v s
  | .wrRxFreq sub v => Sys2Proof.Machine.execWrRxFreq sub v s
  | .wrRxPhase sub v => Sys2Proof.Machine.execWrRxPhase sub v s
  | .wrRxOmega sub v => Sys2Proof.Machine.execWrRxOmega sub v s
  | .wrRxMu sub v => Sys2Proof.Machine.execWrRxMu sub v s
  | .wrCsInc sub v => Sys2Proof.Machine.execWrCsInc sub v s
  | .wrCsDecim sub v => Sys2Proof.Machine.execWrCsDecim sub v s
  | .wrCsNtaps sub v => Sys2Proof.Machine.execWrCsNtaps sub v s
  | .wrFmdGain sub v => Sys2Proof.Machine.execWrFmdGain sub v s
  | .wrFmdDecim sub v => Sys2Proof.Machine.execWrFmdDecim sub v s
  | .wrFmdNtaps sub v => Sys2Proof.Machine.execWrFmdNtaps sub v s
  | .wrFmdAlpha sub v => Sys2Proof.Machine.execWrFmdAlpha sub v s
  | .wrTmInc sub v => Sys2Proof.Machine.execWrTmInc sub v s
  | .wrTmDecim sub v => Sys2Proof.Machine.execWrTmDecim sub v s
  | .wrTmNtaps sub v => Sys2Proof.Machine.execWrTmNtaps sub v s
  | .wrRxOmegaMid sub v => Sys2Proof.Machine.execWrRxOmegaMid sub v s
  | .wrRxOmegaRel sub v => Sys2Proof.Machine.execWrRxOmegaRel sub v s
  | .wrRxGainMu sub v => Sys2Proof.Machine.execWrRxGainMu sub v s
  | .wrRxGainOmega sub v => Sys2Proof.Machine.execWrRxGainOmega sub v s
  | .wrRxAlpha sub v => Sys2Proof.Machine.execWrRxAlpha sub v s
  | .wrRxBeta sub v => Sys2Proof.Machine.execWrRxBeta sub v s
  | .wrRxFmin sub v => Sys2Proof.Machine.execWrRxFmin sub v s
  | .wrRxFmax sub v => Sys2Proof.Machine.execWrRxFmax sub v s
  | .wrDdSkip sub v => Sys2Proof.Machine.execWrDdSkip sub v s
  | .wrTapAddr sub v => Sys2Proof.Machine.execWrTapAddr sub v s
  | .wrTapData sub v => Sys2Proof.Machine.execWrTapData sub v s
  | .rdUnmapped addr => Sys2Proof.Machine.execRdUnmapped addr s
  | .wrUnmapped addr v => Sys2Proof.Machine.execWrUnmapped addr v s
  | .pushIq iByte qByte => Sys2Proof.Machine.execPushIq iByte qByte s
  | .popAud => Sys2Proof.Machine.execPopAud s
  | .pushAud v => Sys2Proof.Machine.execPushAud v s
  | .popBit => Sys2Proof.Machine.execPopBit s
  | .fireMix0 => Sys2Proof.Machine.execFireMix0 s
  | .fireFir0 => Sys2Proof.Machine.execFireFir0 s
  | .fireQd => Sys2Proof.Machine.execFireQd s
  | .fireFir1 => Sys2Proof.Machine.execFireFir1 s
  | .fireDe => Sys2Proof.Machine.execFireDe s
  | .fireMix1 => Sys2Proof.Machine.execFireMix1 s
  | .fireFir2 => Sys2Proof.Machine.execFireFir2 s
  | .fireRx => Sys2Proof.Machine.execFireRx s
  | .fireDd => Sys2Proof.Machine.execFireDd s

end Sys2Proof.Machine
end

