-- ==== Sys2Proof/Machine/Step.lean ====
section
/-! DEFINITION. One step of the machine (00_scope.md R5): what the outside has scheduled next, or, with nothing
scheduled, a firing the core takes by itself. -/

namespace Sys2Proof.Machine

/-- One step. A reserved code has no meaning (R105); the hard reset input resets the core (R370). -/
def step (s : State) : Host.Outcome State Fault Refusal :=
  match s.pending with
  | [] => coreMove s
  | .hardReset :: _ => .next (hardReset (retire s))
  | .txn t :: _ =>
    match decode t with
    | .ok i => exec i s
    | .error why => .refused (.reservedCode why)

/-- `s` with the transaction whose bits are `w` scheduled as its next step (notes/assumptions/1). -/
def State.withFetchWord (s : State) (nbits w : Nat) : State :=
  { s with pending := .txn (txnOfWord nbits w) :: s.pending }

end Sys2Proof.Machine
end

