-- ==== Sys2Proof/Safety.lean ====
section
/-! DEFINITION. What holds of the machine along every run, in the terms the statements use: the structural invariant of
the state, the bounds of the receiver's loop state (44_costas_loop.md R271), and the work left in the channels
(93_implementation_defined.md, "Hangs and blind spots"). -/

namespace Sys2Proof.Machine

/-- How many elements each channel holds, in the order of R65. -/
def channelLengths (c : Channels) : List Nat :=
  [c.iq.length, c.mx0.length, c.f0.length, c.qd.length, c.f1.length, c.aout.length, c.ain.length, c.mx1.length,
   c.f2.length, c.rx.length, c.bit.length]

/-- A FIR instance running with `n` taps and decimation `d` (R64, R200): as many samples held as counted, at most `n`,
and a phase below `d`. -/
structure FirOk {α : Type} (n d : Half) (u : Fir α) : Prop where
  held : u.dl.length = u.fill.toNat
  fill_le : u.fill.toNat ≤ n.toNat
  phase_lt : u.ph.toNat < d.toNat

/-- The structural invariant. -/
structure Inv (s : State) : Prop where
  /-- The tap memory has its canonical form. -/
  taps_wf : s.taps.wf
  /-- Every listed tap is an entry of R63. -/
  taps_exist : ∀ c ∈ s.taps, ∃ b i, b ≤ 2 ∧ i < Config.ntapsMax ∧ c.1 = tapAddress b i
  /-- No channel exceeds its capacity (R76). -/
  bounded : ∀ n ∈ channelLengths s.ch, n ≤ Config.fifoDepth
  /-- BIT_OUT elements are 0 or 1 (R108). -/
  bits : ∀ b ∈ s.ch.bit, b = 0#8 ∨ b = 1#8
  /-- Outside RUN nothing is in flight and the units are as reset left them (R336, R372). -/
  quiet : s.mode ≠ .run →
    s.ch = Channels.empty ∧ s.dp = Datapath.cleared ∧ s.cnt = ⟨0#32, 0#32, 0#32, 0#32⟩ ∧
      s.fsat = false ∧ s.osat = false ∧ s.nans = false
  /-- RUN is entered only with a configuration that passes the check, and keeps it (R67, R143). -/
  checked : s.mode = .run → checkConfig Config.ntapsMax s.cfg = 0#4
  /-- ERR_CODE is a code of R331 in ERROR and 0 elsewhere (R33, R112). -/
  err_code : if s.mode = .error then 1 ≤ s.errCode.toNat ∧ s.errCode.toNat ≤ 12 else s.errCode = 0#4
  /-- The FIR units in RUN (R200). -/
  fir0 : s.mode = .run → FirOk s.cfg.csNtaps s.cfg.csDecim s.dp.fir0
  fir1 : s.mode = .run → FirOk s.cfg.fmdNtaps s.cfg.fmdDecim s.dp.fir1
  fir2 : s.mode = .run → FirOk s.cfg.tmNtaps s.cfg.tmDecim s.dp.fir2
  /-- DD suppresses at most DD_SKIP further bits (R313). -/
  skip_le : s.dp.dd.skipLeft.toNat ≤ s.cfg.ddSkip.toNat

/-- `lo <= v <= hi`, none of them NaN (R10). -/
def Between (lo v hi : F32) : Prop := fle lo v = true ∧ fle v hi = true

/-- The carrier half of R271: in RUN the phase is within half a turn and the frequency within its bounds, which it
first takes at the first symbol (until then it is START's `+0`). -/
structure CarrierBounded (s : State) : Prop where
  checked : s.mode = .run → checkConfig Config.ntapsMax s.cfg = 0#4
  phase : s.mode = .run → Between (fneg pi32) s.dp.rx.phi pi32
  frequency : s.mode = .run →
    if s.dp.rx.havePrev then Between s.cfg.rxFmin s.dp.rx.f s.cfg.rxFmax else s.dp.rx.f = 0#32

/-- The timing half of R271: in RUN the symbol period is within its bounds, the offset in `[0, 1)` and the wait at most
2^21. -/
structure TimingBounded (s : State) : Prop where
  checked : s.mode = .run → checkConfig Config.ntapsMax s.cfg = 0#4
  period : s.mode = .run →
    Between (omegaLo s.cfg.rxOmegaMid s.cfg.rxOmegaRel) s.dp.rx.omega (omegaHi s.cfg.rxOmegaMid s.cfg.rxOmegaRel)
  offset : s.mode = .run → fle 0#32 s.dp.rx.mu = true ∧ flt s.dp.rx.mu fone = true
  wait_le : s.mode = .run → s.dp.rx.wait.toNat ≤ 2 ^ 21

/-- How many firings the elements in the channels can cause at most: an element is worth one firing for each unit
between it and its port. -/
def work (s : State) : Nat :=
  5 * s.ch.iq.length + 4 * s.ch.mx0.length + 3 * s.ch.f0.length + 2 * s.ch.qd.length + s.ch.f1.length +
    4 * s.ch.ain.length + 3 * s.ch.mx1.length + 2 * s.ch.f2.length + s.ch.rx.length

/-- The value a finite pattern encodes (R8, R71), as a rational. -/
def binaryValue (a : F32) : ℚ :=
  let e : Nat := fmag a / 2 ^ 23
  let f : Nat := fmag a % 2 ^ 23
  let m : ℚ := if e = 0 then (f : ℚ) / 2 ^ 149 else ((2 ^ 23 + f : Nat) : ℚ) * 2 ^ (e - 1) / 2 ^ 149
  if fsign a then -m else m

end Sys2Proof.Machine
end

