-- ==== Sys2Proof/Certificates/Slice0/Obligations.lean ====
section
/-! DEFINITION. The statements for the provers, each `def Obligations.<Name> : Prop`, and under `Sys2Proof.Spec` the terms
they are written in. OBLIGATIONS.json says which rule of spec/ each formalises. -/

namespace Sys2Proof.Spec

open Sys2Proof.Machine

/-! ### Terms of the statements -/

/-- 1 for true, 0 for false. -/
def bitOf (b : Bool) : Nat := if b then 1 else 0

/-- The code of a bus access to byte address `a` with `addr[1:0]` replaced by `sub`: `(KIND << 12) | a` (R101). -/
def busTc (kind a : Nat) (sub : BitVec 2) : Half := BitVec.ofNat 16 (kind * 2 ^ 12 + a + sub.toNat)

/-- `s` after a transaction that changed nothing: only the schedule moved on. -/
def done (s : State) : State := { s with pending := s.pending.tail }

/-- `s` after a transaction that changed nothing and returned `r`. -/
def returned (s : State) (r : Returned) : State := { s with pending := s.pending.tail, ret := some r }

/-- STATUS.BUSY as R79 words it: at least one of the nine channels is non-empty. -/
def anyBusy (c : Channels) : Bool :=
  decide (c.iq ≠ [] ∨ c.mx0 ≠ [] ∨ c.f0 ≠ [] ∨ c.qd ≠ [] ∨ c.f1 ≠ [] ∨ c.ain ≠ [] ∨ c.mx1 ≠ [] ∨ c.f2 ≠ [] ∨
    c.rx ≠ [])

/-- The `irq` output as R68 words it. -/
def irqLevel (s : State) : Bool :=
  decide ((s.irqEn.getLsbD 0 ∧ s.fsat) ∨ (s.irqEn.getLsbD 1 ∧ s.osat) ∨ (s.irqEn.getLsbD 2 ∧ s.nans) ∨
    (s.irqEn.getLsbD 3 ∧ s.mode = .error))

/-- STATUS as a number: each field of R38 at its weight, the reserved bits 0. -/
def statusNumber (s : State) : Nat :=
  (match s.mode with | .idle => 0 | .run => 1 | .error => 2) + 4 * bitOf (anyBusy s.ch) + 8 * bitOf (irqLevel s) +
    16 * s.errCode.toNat + 256 * bitOf s.fsat + 512 * bitOf s.osat + 1024 * bitOf s.nans +
    2048 * bitOf s.dp.rx.fsatNow

/-- A read of the register at `a` is the operation `i`, whatever `addr[1:0]` says, and in every state returns `v` and
changes nothing else. -/
def ReadReturns (a : Nat) (i : BitVec 2 → Instr) (v : State → Word) : Prop :=
  ∀ (sub : BitVec 2) (s : State),
    (∀ p, decode ⟨busTc 0 a sub, p⟩ = .ok (i sub)) ∧ exec (i sub) s = .next (returned s (.bus (v s)))

/-- A write of the configuration register at `a` is the operation `i`; outside RUN it stores by `f` and changes nothing
else, in RUN it changes nothing. -/
def WriteStores (a : Nat) (i : BitVec 2 → Word → Instr) (f : CfgRegs → Word → CfgRegs) : Prop :=
  ∀ (sub : BitVec 2) (v : Word) (s : State),
    decode ⟨busTc 1 a sub, v⟩ = .ok (i sub v) ∧
    (s.mode = .run → exec (i sub v) s = .next (done s)) ∧
    (s.mode ≠ .run → exec (i sub v) s = .next { done s with cfg := f s.cfg v })

/-- A write of the read-only register at `a` is the operation `i` and changes nothing in any state. -/
def WriteIgnored (a : Nat) (i : BitVec 2 → Word → Instr) : Prop :=
  ∀ (sub : BitVec 2) (v : Word) (s : State),
    decode ⟨busTc 1 a sub, v⟩ = .ok (i sub v) ∧ exec (i sub v) s = .next (done s)

/-- The operation `i` reads `v` right after reset. -/
def ReadsAtReset (i : BitVec 2 → Instr) (v : Word) : Prop :=
  ∀ sub, ∃ t, exec (i sub) State.reset = .next t ∧ t.ret = some (.bus v)

/-- The scheduled step `i` has no step in `s`: if the machine moves at all, `i` is still scheduled and nothing was
returned. -/
def Waits (i : Instr) (s : State) : Prop :=
  ∀ t, exec i s = .next t → t.pending = s.pending ∧ t.ret = s.ret

/-- A firing is possible: R78. -/
def CanFire (s : State) (inLen outLen : Nat) : Prop := s.mode = .run ∧ 0 < inLen ∧ outLen < Config.fifoDepth

/-- Where R78 enables the firing of `u`, the channels of `u` being those of R77. -/
def Fireable (u : UnitId) (s : State) : Prop :=
  match u with
  | .mix0 => CanFire s s.ch.iq.length s.ch.mx0.length
  | .fir0 => CanFire s s.ch.mx0.length s.ch.f0.length
  | .qd => CanFire s s.ch.f0.length s.ch.qd.length
  | .fir1 => CanFire s s.ch.qd.length s.ch.f1.length
  | .de => CanFire s s.ch.f1.length s.ch.aout.length
  | .mix1 => CanFire s s.ch.ain.length s.ch.mx1.length
  | .fir2 => CanFire s s.ch.mx1.length s.ch.f2.length
  | .rx => CanFire s s.ch.f2.length s.ch.rx.length
  | .dd => CanFire s s.ch.rx.length s.ch.bit.length

/-- The operation that names the firing of `u` (R102). -/
def firingOf (u : UnitId) : Instr :=
  match u with
  | .mix0 => .fireMix0
  | .fir0 => .fireFir0
  | .qd => .fireQd
  | .fir1 => .fireFir1
  | .de => .fireDe
  | .mix1 => .fireMix1
  | .fir2 => .fireFir2
  | .rx => .fireRx
  | .dd => .fireDd

/-- The FIR firing of R201 for one instance: the new unit state. `(ph + 1) mod D` with `D = 0` is a free value
(notes/assumptions/12). -/
def firNext {α : Type} (n d : Half) (u : Fir α) (x : α) : Fir α :=
  let fill : Half := if u.fill.toNat < n.toNat then u.fill + 1#16 else u.fill
  { dl := x :: (u.dl.take (n.toNat - 1) ++ u.dl.drop (max n.toNat 1))
    fill := fill
    ph :=
      if fill = n then
        if d = 0#16 then Config.phaseModZero u.ph else BitVec.ofNat 16 ((u.ph.toNat + 1) % d.toNat)
      else u.ph }

/-- The FIR firing of R201 for one instance: whether this sample gives an output. -/
def firDue {α : Type} (n : Half) (u : Fir α) : Bool :=
  decide ((if u.fill.toNat < n.toNat then u.fill + 1#16 else u.fill) = n) && decide (u.ph = 0#16)

/-- Entries `dl[0..n-1]` of the delay line after `x` (R200), newest first. -/
def firView {α : Type} (zero : α) (n : Half) (u : Fir α) (x : α) : List α :=
  (List.range n.toNat).map
    (fun j => (x :: (u.dl.take (n.toNat - 1) ++ u.dl.drop (max n.toNat 1))).getD j zero)

/-- The tap values `Tap(b, 0..n-1)`, each as the host would read it (R62). -/
def tapsOf (s : State) (b : BitVec 2) (n : Half) : List F32 :=
  (List.range n.toNat).map (fun j => memRead s.taps (b.toNat * 2 ^ 16 + j))

/-- A symbol instant of R261, line by line: `x` is accepted by `r`; the result is the unit's state before the last line
(the phase advance), the symbol, and the conditions FSAT, OSAT, NANS. -/
def rxInstant (n : Machine.Num) (g : CfgRegs) (r : Rx) (x : C32) : Rx × C32 × Bool × Bool × Bool :=
  let xp := r.xc
  let xc := x
  let w0 := fsub fone r.mu
  let yre := fadd (fmul w0 xp.re) (fmul r.mu xc.re)
  let yim := fadd (fmul w0 xp.im) (fmul r.mu xc.im)
  let cph := n.cos r.phi
  let sph := n.sin r.phi
  let zre := fadd (fmul yre cph) (fmul yim sph)
  let zim := fsub (fmul yim cph) (fmul yre sph)
  let c := if fgt zre 0#32 then fone else fnegOne
  let et0 := if r.havePrev then fsub (fmul r.cp zre) (fmul c r.zp.re) else 0#32
  let et := clip1 et0
  let lim := fmul g.rxOmegaMid g.rxOmegaRel
  let lo := fsub g.rxOmegaMid lim
  let hi := fadd g.rxOmegaMid lim
  let w1 := fadd r.omega (fmul g.rxGainOmega et)
  let omega := fclamp w1 lo hi
  let m1 := fadd r.mu (fadd omega (fmul g.rxGainMu et))
  let a := ffloor m1
  let ep0 := n.atan2 (fmul c zim) (fabs zre)
  let ep := if fnan ep0 then 0#32 else ep0
  let f1 := fadd r.f (fmul g.rxBeta ep)
  let sat := flt f1 g.rxFmin || fgt f1 g.rxFmax
  ({ phi := fadd r.phi (fmul g.rxAlpha ep)
     f := fclamp f1 g.rxFmin g.rxFmax
     omega := omega
     mu := fsub m1 (fofInt a)
     wait := BitVec.ofInt 32 (a - 1)
     xp := xp
     xc := xc
     zp := ⟨zre, zim⟩
     cp := c
     havePrev := true
     fsatNow := sat },
   ⟨zre, zim⟩, sat, flt w1 lo || fgt w1 hi, fnan et0 || fnan ep0)

/-- The last line of R261: the phase advances by the frequency and wraps. -/
def advancePhase (r : Rx) : Rx := { r with phi := wrap (fadd r.phi r.f) }

/-- One FIR instance run over a stream: its last state and the windows of its outputs, in order. -/
def firRun {α : Type} (zero : α) (n d : Half) (u : Fir α) (xs : List α) : Fir α × List (List α) :=
  xs.foldl (fun st x => ((firAccept zero n d st.1 x).1, st.2 ++ (firAccept zero n d st.1 x).2.toList)) (u, [])

/-- DD run over a stream of symbols: its last state and its bits, in order. -/
def ddRun (u : Dd) (zs : List C32) : Dd × List Byte :=
  zs.foldl (fun st z => ((ddAccept st.1 z).1, st.2 ++ (ddAccept st.1 z).2.toList)) (u, [])

/-- QD run over a stream: its last state and its outputs, in order. -/
def qdRun (n : Machine.Num) (gain : F32) (u : Qd) (xs : List C32) : Qd × List F32 :=
  xs.foldl (fun st x => ((qdAccept n gain st.1 x).1, st.2 ++ (qdAccept n gain st.1 x).2.toList)) (u, [])

/-- RX run over a stream: its last state and its symbols, in order. -/
def rxRun (n : Machine.Num) (g : CfgRegs) (r : Rx) (xs : List C32) : Rx × List C32 :=
  xs.foldl (fun st x => ((rxAccept n g st.1 x).rx, st.2 ++ (rxAccept n g st.1 x).symbol.toList)) (r, [])

/-- `-z`. -/
def negate (z : C32) : C32 := ⟨fneg z.re, fneg z.im⟩

/-- The complex conjugate. -/
def conjugate (z : C32) : C32 := ⟨z.re, fneg z.im⟩

/-- `z` a quarter turn further: `i·z`. -/
def quarterTurn (z : C32) : C32 := ⟨fneg z.im, z.re⟩

/-- `n` samples of constant envelope from `z` on, a quarter turn each (the input of R234 at `ω0 = π/2`). -/
def quarterTurns (z : C32) (n : Nat) : List C32 := (List.range n).map (fun k => quarterTurn^[k] z)

/-- The check with code `k` of R331 fails, on the values the registers encode, in exact arithmetic. -/
def CheckFails (ntapsMax : Nat) (c : CfgRegs) (k : Nat) : Prop :=
  let v := binaryValue
  match k with
  | 1 => c.csDecim = 0#16
  | 2 => c.csNtaps = 0#16 ∨ ntapsMax < c.csNtaps.toNat
  | 3 => c.fmdDecim = 0#16
  | 4 => c.fmdNtaps = 0#16 ∨ ntapsMax < c.fmdNtaps.toNat
  | 5 => c.tmDecim = 0#16
  | 6 => c.tmNtaps = 0#16 ∨ ntapsMax < c.tmNtaps.toNat
  | 7 => ¬ (ffinite c.fmdGain ∧ ffinite c.fmdAlpha ∧ ffinite c.rxOmegaMid ∧ ffinite c.rxOmegaRel ∧
      ffinite c.rxGainMu ∧ ffinite c.rxGainOmega ∧ ffinite c.rxAlpha ∧ ffinite c.rxBeta ∧ ffinite c.rxFmin ∧
      ffinite c.rxFmax)
  | 8 => v c.fmdGain ≤ 0 ∨ v c.fmdAlpha ≤ 0 ∨ 1 < v c.fmdAlpha
  | 9 => v c.rxOmegaRel < 0 ∨ 1 / 2 < v c.rxOmegaRel
  | 10 => v c.rxGainMu < 0 ∨ 2 < v c.rxGainMu ∨ v c.rxGainOmega < 0 ∨ 2 < v c.rxGainOmega ∨ v c.rxAlpha < 0 ∨
      2 < v c.rxAlpha ∨ v c.rxBeta < 0 ∨ 2 < v c.rxBeta
  | 11 => 2 ^ 20 < v c.rxOmegaMid ∨ v c.rxOmegaMid * (1 - v c.rxOmegaRel) - v c.rxGainMu < 3 / 2
  | 12 => v c.rxFmax < v c.rxFmin ∨ v c.rxFmin < -v pi32 ∨ v pi32 < v c.rxFmax
  | _ => False

/-- What the FM half of the core (MIX0 to DE, R77) reads and writes. -/
def fmHalf (s : State) :=
  ((s.mode, s.cfg, s.taps), (s.ch.iq, s.ch.mx0, s.ch.f0, s.ch.qd, s.ch.f1, s.ch.aout),
    (s.dp.mix0Acc, s.dp.fir0, s.dp.qd, s.dp.fir1, s.dp.deY), s.cnt.audCount)

/-- What the tone half (MIX1 to DD, R77) has of its own. -/
def toneHalf (s : State) :=
  ((s.ch.ain, s.ch.mx1, s.ch.f2, s.ch.rx, s.ch.bit), (s.dp.mix1Acc, s.dp.fir2, s.dp.rx, s.dp.dd),
    (s.cnt.symCount, s.cnt.bitCount), (s.fsat, s.osat, s.nans))

/-- The units of the FM half. -/
def fmUnits : List UnitId := [.mix0, .fir0, .qd, .fir1, .de]

end Sys2Proof.Spec

open Sys2Proof Sys2Proof.Machine

/-! ### The bus -/

/-- R140: every register other than TAP_DATA reads as its rule says, in every state, `addr[1:0]` ignored. -/
def Obligations.RegisterReadsReturnTheRegister : Prop :=
    Spec.ReadReturns 0x000 .rdId (fun _ => 0x464D4443#32) ∧
    Spec.ReadReturns 0x004 .rdCtrl (fun _ => 0#32) ∧
    Spec.ReadReturns 0x008 .rdStatus (fun s => BitVec.ofNat 32 (Spec.statusNumber s)) ∧
    Spec.ReadReturns 0x00C .rdIrqEn (fun s => BitVec.ofNat 32 s.irqEn.toNat) ∧
    Spec.ReadReturns 0x010 .rdInCount (fun s => s.cnt.inCount) ∧
    Spec.ReadReturns 0x014 .rdAudCount (fun s => s.cnt.audCount) ∧
    Spec.ReadReturns 0x018 .rdSymCount (fun s => s.cnt.symCount) ∧
    Spec.ReadReturns 0x01C .rdBitCount (fun s => s.cnt.bitCount) ∧
    Spec.ReadReturns 0x020 .rdRxFreq (fun s => s.dp.rx.f) ∧
    Spec.ReadReturns 0x024 .rdRxPhase (fun s => s.dp.rx.phi) ∧
    Spec.ReadReturns 0x028 .rdRxOmega (fun s => s.dp.rx.omega) ∧
    Spec.ReadReturns 0x02C .rdRxMu (fun s => s.dp.rx.mu) ∧
    Spec.ReadReturns 0x040 .rdCsInc (fun s => s.cfg.csInc) ∧
    Spec.ReadReturns 0x044 .rdCsDecim (fun s => BitVec.ofNat 32 s.cfg.csDecim.toNat) ∧
    Spec.ReadReturns 0x048 .rdCsNtaps (fun s => BitVec.ofNat 32 s.cfg.csNtaps.toNat) ∧
    Spec.ReadReturns 0x050 .rdFmdGain (fun s => s.cfg.fmdGain) ∧
    Spec.ReadReturns 0x054 .rdFmdDecim (fun s => BitVec.ofNat 32 s.cfg.fmdDecim.toNat) ∧
    Spec.ReadReturns 0x058 .rdFmdNtaps (fun s => BitVec.ofNat 32 s.cfg.fmdNtaps.toNat) ∧
    Spec.ReadReturns 0x05C .rdFmdAlpha (fun s => s.cfg.fmdAlpha) ∧
    Spec.ReadReturns 0x060 .rdTmInc (fun s => s.cfg.tmInc) ∧
    Spec.ReadReturns 0x064 .rdTmDecim (fun s => BitVec.ofNat 32 s.cfg.tmDecim.toNat) ∧
    Spec.ReadReturns 0x068 .rdTmNtaps (fun s => BitVec.ofNat 32 s.cfg.tmNtaps.toNat) ∧
    Spec.ReadReturns 0x070 .rdRxOmegaMid (fun s => s.cfg.rxOmegaMid) ∧
    Spec.ReadReturns 0x074 .rdRxOmegaRel (fun s => s.cfg.rxOmegaRel) ∧
    Spec.ReadReturns 0x078 .rdRxGainMu (fun s => s.cfg.rxGainMu) ∧
    Spec.ReadReturns 0x07C .rdRxGainOmega (fun s => s.cfg.rxGainOmega) ∧
    Spec.ReadReturns 0x080 .rdRxAlpha (fun s => s.cfg.rxAlpha) ∧
    Spec.ReadReturns 0x084 .rdRxBeta (fun s => s.cfg.rxBeta) ∧
    Spec.ReadReturns 0x088 .rdRxFmin (fun s => s.cfg.rxFmin) ∧
    Spec.ReadReturns 0x08C .rdRxFmax (fun s => s.cfg.rxFmax) ∧
    Spec.ReadReturns 0x090 .rdDdSkip (fun s => BitVec.ofNat 32 s.cfg.ddSkip.toNat) ∧
    Spec.ReadReturns 0x100 .rdTapAddr (fun s => BitVec.ofNat 32 (s.tapBank.toNat * 2 ^ 16 + s.tapIndex.toNat))

/-- R149: RD_TAP_DATA returns the selected tap, or 0, and advances INDEX modulo 2^16. -/
def Obligations.TapDataReadReturnsTapAndAdvances : Prop :=
  ∀ (sub : BitVec 2) (s : State),
    (∀ p, decode ⟨Spec.busTc 0 0x104 sub, p⟩ = .ok (.rdTapData sub)) ∧
    exec (.rdTapData sub) s =
      .next { Spec.returned s (.bus
          (if s.tapBank.toNat ≤ 2 ∧ s.tapIndex.toNat < Config.ntapsMax then
            memRead s.taps (s.tapBank.toNat * 2 ^ 16 + s.tapIndex.toNat) else 0#32)) with
        tapIndex := BitVec.ofNat 16 ((s.tapIndex.toNat + 1) % 2 ^ 16) }

/-- R152: a read of an address that no register has returns 0 and changes nothing. -/
def Obligations.UnmappedReadsReturnZero : Prop :=
  ∀ (addr : BitVec 12) (s : State),
    (isMapped addr = false → ∀ p, decode ⟨0#4 ++ addr, p⟩ = .ok (.rdUnmapped addr)) ∧
    exec (.rdUnmapped addr) s = .next (Spec.returned s (.bus 0#32))

/-- R151: writes of read-only registers and of unmapped addresses change nothing. -/
def Obligations.ReadOnlyAndUnmappedWritesDoNothing : Prop :=
    Spec.WriteIgnored 0x000 .wrId ∧
    Spec.WriteIgnored 0x010 .wrInCount ∧
    Spec.WriteIgnored 0x014 .wrAudCount ∧
    Spec.WriteIgnored 0x018 .wrSymCount ∧
    Spec.WriteIgnored 0x01C .wrBitCount ∧
    Spec.WriteIgnored 0x020 .wrRxFreq ∧
    Spec.WriteIgnored 0x024 .wrRxPhase ∧
    Spec.WriteIgnored 0x028 .wrRxOmega ∧
    Spec.WriteIgnored 0x02C .wrRxMu ∧
    ∀ (addr : BitVec 12) (v : Word) (s : State),
      (isMapped addr = false → decode ⟨1#4 ++ addr, v⟩ = .ok (.wrUnmapped addr v)) ∧
      exec (.wrUnmapped addr v) s = .next (Spec.done s)

/-- R141: a configuration write stores all 32 bits (CFG) or the low 16 (CFG16), and nothing in RUN. -/
def Obligations.ConfigurationWritesStoreUnlessRunning : Prop :=
    Spec.WriteStores 0x040 .wrCsInc (fun c v => { c with csInc := v }) ∧
    Spec.WriteStores 0x044 .wrCsDecim (fun c v => { c with csDecim := BitVec.ofNat 16 v.toNat }) ∧
    Spec.WriteStores 0x048 .wrCsNtaps (fun c v => { c with csNtaps := BitVec.ofNat 16 v.toNat }) ∧
    Spec.WriteStores 0x050 .wrFmdGain (fun c v => { c with fmdGain := v }) ∧
    Spec.WriteStores 0x054 .wrFmdDecim (fun c v => { c with fmdDecim := BitVec.ofNat 16 v.toNat }) ∧
    Spec.WriteStores 0x058 .wrFmdNtaps (fun c v => { c with fmdNtaps := BitVec.ofNat 16 v.toNat }) ∧
    Spec.WriteStores 0x05C .wrFmdAlpha (fun c v => { c with fmdAlpha := v }) ∧
    Spec.WriteStores 0x060 .wrTmInc (fun c v => { c with tmInc := v }) ∧
    Spec.WriteStores 0x064 .wrTmDecim (fun c v => { c with tmDecim := BitVec.ofNat 16 v.toNat }) ∧
    Spec.WriteStores 0x068 .wrTmNtaps (fun c v => { c with tmNtaps := BitVec.ofNat 16 v.toNat }) ∧
    Spec.WriteStores 0x070 .wrRxOmegaMid (fun c v => { c with rxOmegaMid := v }) ∧
    Spec.WriteStores 0x074 .wrRxOmegaRel (fun c v => { c with rxOmegaRel := v }) ∧
    Spec.WriteStores 0x078 .wrRxGainMu (fun c v => { c with rxGainMu := v }) ∧
    Spec.WriteStores 0x07C .wrRxGainOmega (fun c v => { c with rxGainOmega := v }) ∧
    Spec.WriteStores 0x080 .wrRxAlpha (fun c v => { c with rxAlpha := v }) ∧
    Spec.WriteStores 0x084 .wrRxBeta (fun c v => { c with rxBeta := v }) ∧
    Spec.WriteStores 0x088 .wrRxFmin (fun c v => { c with rxFmin := v }) ∧
    Spec.WriteStores 0x08C .wrRxFmax (fun c v => { c with rxFmax := v }) ∧
    Spec.WriteStores 0x090 .wrDdSkip (fun c v => { c with ddSkip := BitVec.ofNat 16 v.toNat })

/-- R371: a write of CTRL with bit 1 set is a soft reset in every state, whatever its other bits. -/
def Obligations.SoftResetClearsStreamKeepsConfiguration : Prop :=
  ∀ (sub : BitVec 2) (v : Word) (s : State), v.getLsbD 1 = true →
    decode ⟨Spec.busTc 1 0x004 sub, v⟩ = .ok (.wrCtrl sub v) ∧
    exec (.wrCtrl sub v) s =
      .next { Spec.done s with
        ch := ⟨[], [], [], [], [], [], [], [], [], [], []⟩
        dp :=
          { mix0Acc := 0#32, fir0 := ⟨[], 0#16, 0#16⟩, qd := ⟨⟨0#32, 0#32⟩, false⟩, fir1 := ⟨[], 0#16, 0#16⟩,
            deY := 0#32, mix1Acc := 0#32, fir2 := ⟨[], 0#16, 0#16⟩,
            rx :=
              { phi := 0#32, f := 0#32, omega := 0#32, mu := 0#32, wait := 1#32, xp := ⟨0#32, 0#32⟩,
                xc := ⟨0#32, 0#32⟩, zp := ⟨0#32, 0#32⟩, cp := fone, havePrev := false, fsatNow := false },
            dd := ⟨⟨0#32, 0#32⟩, false, 0#16⟩ }
        cnt := ⟨0#32, 0#32, 0#32, 0#32⟩
        fsat := false
        osat := false
        nans := false
        errCode := 0#4
        mode := .idle }

/-- R142: a write of CTRL without bit 1 changes nothing when bit 0 is clear, and nothing in RUN. -/
def Obligations.CtrlWriteWithoutCommandDoesNothing : Prop :=
  ∀ (sub : BitVec 2) (v : Word) (s : State), v.getLsbD 1 = false → (v.getLsbD 0 = true → s.mode = .run) →
    decode ⟨Spec.busTc 1 0x004 sub, v⟩ = .ok (.wrCtrl sub v) ∧ exec (.wrCtrl sub v) s = .next (Spec.done s)

/-- R143, R332: a START outside RUN whose check fails enters ERROR with the code, raises `irq` where ERR_EN is set, and
changes nothing else; one whose check passes empties the channels, initialises every unit and enters RUN. -/
def Obligations.StartChecksThenRunsOrFails : Prop :=
  ∀ (sub : BitVec 2) (v : Word) (s : State), v.getLsbD 1 = false → v.getLsbD 0 = true → s.mode ≠ .run →
    decode ⟨Spec.busTc 1 0x004 sub, v⟩ = .ok (.wrCtrl sub v) ∧
    (checkConfig Config.ntapsMax s.cfg ≠ 0#4 →
      exec (.wrCtrl sub v) s =
        .next { Spec.done s with mode := .error, errCode := checkConfig Config.ntapsMax s.cfg } ∧
      ∀ t, exec (.wrCtrl sub v) s = .next t → s.irqEn.getLsbD 3 = true → irq t = true) ∧
    (checkConfig Config.ntapsMax s.cfg = 0#4 →
      exec (.wrCtrl sub v) s =
        .next { Spec.done s with
          ch := ⟨[], [], [], [], [], [], [], [], [], [], []⟩
          dp :=
            { mix0Acc := 0#32, fir0 := ⟨[], 0#16, 0#16⟩, qd := ⟨⟨0#32, 0#32⟩, false⟩, fir1 := ⟨[], 0#16, 0#16⟩,
              deY := 0#32, mix1Acc := 0#32, fir2 := ⟨[], 0#16, 0#16⟩,
              rx :=
                { phi := 0#32, f := 0#32, omega := s.cfg.rxOmegaMid, mu := 0#32, wait := 1#32, xp := ⟨0#32, 0#32⟩,
                  xc := ⟨0#32, 0#32⟩, zp := ⟨0#32, 0#32⟩, cp := fone, havePrev := false, fsatNow := false },
              dd := ⟨⟨0#32, 0#32⟩, false, s.cfg.ddSkip⟩ }
          cnt := ⟨0#32, 0#32, 0#32, 0#32⟩
          fsat := false
          osat := false
          nans := false
          errCode := 0#4
          mode := .run })

/-- R331: the check answers the lowest code that fails, evaluated in exact arithmetic, and 0 when none fails. -/
def Obligations.ConfigCheckReportsLowestFailingCode : Prop :=
  ∀ (ntapsMax : Nat) (c : CfgRegs),
    (∀ k, 1 ≤ k → k ≤ 12 →
      ((checkConfig ntapsMax c).toNat = k ↔
        Spec.CheckFails ntapsMax c k ∧ ∀ j, 1 ≤ j → j < k → ¬ Spec.CheckFails ntapsMax c j)) ∧
    (checkConfig ntapsMax c = 0#4 ↔ ∀ j, ¬ Spec.CheckFails ntapsMax c j)

/-- R146: a write of STATUS clears exactly the sticky flags whose bit is 1. -/
def Obligations.StatusWriteClearsNamedFlags : Prop :=
  ∀ (sub : BitVec 2) (v : Word) (s : State),
    decode ⟨Spec.busTc 1 0x008 sub, v⟩ = .ok (.wrStatus sub v) ∧
    exec (.wrStatus sub v) s =
      .next { Spec.done s with
        fsat := if v.getLsbD 8 then false else s.fsat
        osat := if v.getLsbD 9 then false else s.osat
        nans := if v.getLsbD 10 then false else s.nans }

/-- R147: a write of IRQ_EN stores its low four bits in every state. -/
def Obligations.IrqEnableWriteStoresLowFourBits : Prop :=
  ∀ (sub : BitVec 2) (v : Word) (s : State),
    decode ⟨Spec.busTc 1 0x00C sub, v⟩ = .ok (.wrIrqEn sub v) ∧
    exec (.wrIrqEn sub v) s = .next { Spec.done s with irqEn := BitVec.ofNat 4 v.toNat }

/-- R148: a write of TAP_ADDR stores BANK and INDEX in every state. -/
def Obligations.TapAddressWriteStoresBankAndIndex : Prop :=
  ∀ (sub : BitVec 2) (v : Word) (s : State),
    decode ⟨Spec.busTc 1 0x100 sub, v⟩ = .ok (.wrTapAddr sub v) ∧
    exec (.wrTapAddr sub v) s =
      .next { Spec.done s with
        tapBank := BitVec.ofNat 2 (v.toNat / 2 ^ 16), tapIndex := BitVec.ofNat 16 v.toNat }

/-- R150: a write of TAP_DATA does nothing in RUN; elsewhere INDEX advances and the tap it selected, if any, is stored:
every tap then reads as before but that one, and nothing else changes. -/
def Obligations.TapDataWriteStoresOneTapAndAdvances : Prop :=
  ∀ (sub : BitVec 2) (v : Word) (s : State),
    decode ⟨Spec.busTc 1 0x104 sub, v⟩ = .ok (.wrTapData sub v) ∧
    (s.mode = .run → exec (.wrTapData sub v) s = .next (Spec.done s)) ∧
    (s.mode ≠ .run → s.taps.wf →
      ∃ m : Memory, m.wf ∧
        exec (.wrTapData sub v) s =
          .next { Spec.done s with
            taps := m, tapIndex := BitVec.ofNat 16 ((s.tapIndex.toNat + 1) % 2 ^ 16) } ∧
        ∀ a : Nat, memRead m a =
          if a = s.tapBank.toNat * 2 ^ 16 + s.tapIndex.toNat ∧ s.tapBank.toNat ≤ 2 ∧
              s.tapIndex.toNat < Config.ntapsMax then v
          else memRead s.taps a)

/-- R370: the hard reset input puts the whole core at its reset values, whatever its state. That it is one event of the
schedule is the model's choice (notes/assumptions/16). -/
def Obligations.HardResetStepRestoresReset : Prop :=
  ∀ (s : State) (rest : List Event), s.pending = .hardReset :: rest →
    step s = .next { State.reset with pending := rest, ret := s.ret, choice := s.choice }

/-- R34, R370: what every register reads right after reset; `irq` is low. -/
def Obligations.RegistersReadTheirResetValues : Prop :=
    Spec.irqLevel State.reset = false ∧ irq State.reset = false ∧
    Spec.ReadsAtReset .rdId 0x464D4443#32 ∧
    Spec.ReadsAtReset .rdCtrl 0x00000000#32 ∧
    Spec.ReadsAtReset .rdStatus 0x00000000#32 ∧
    Spec.ReadsAtReset .rdIrqEn 0x00000000#32 ∧
    Spec.ReadsAtReset .rdInCount 0x00000000#32 ∧
    Spec.ReadsAtReset .rdAudCount 0x00000000#32 ∧
    Spec.ReadsAtReset .rdSymCount 0x00000000#32 ∧
    Spec.ReadsAtReset .rdBitCount 0x00000000#32 ∧
    Spec.ReadsAtReset .rdRxFreq 0x00000000#32 ∧
    Spec.ReadsAtReset .rdRxPhase 0x00000000#32 ∧
    Spec.ReadsAtReset .rdRxOmega 0x00000000#32 ∧
    Spec.ReadsAtReset .rdRxMu 0x00000000#32 ∧
    Spec.ReadsAtReset .rdCsInc 0x00000000#32 ∧
    Spec.ReadsAtReset .rdCsDecim 0x00000000#32 ∧
    Spec.ReadsAtReset .rdCsNtaps 0x00000000#32 ∧
    Spec.ReadsAtReset .rdFmdGain 0x00000000#32 ∧
    Spec.ReadsAtReset .rdFmdDecim 0x00000000#32 ∧
    Spec.ReadsAtReset .rdFmdNtaps 0x00000000#32 ∧
    Spec.ReadsAtReset .rdFmdAlpha 0x00000000#32 ∧
    Spec.ReadsAtReset .rdTmInc 0x00000000#32 ∧
    Spec.ReadsAtReset .rdTmDecim 0x00000004#32 ∧
    Spec.ReadsAtReset .rdTmNtaps 0x00000000#32 ∧
    Spec.ReadsAtReset .rdRxOmegaMid 0x00000000#32 ∧
    Spec.ReadsAtReset .rdRxOmegaRel 0x3BA3D70A#32 ∧
    Spec.ReadsAtReset .rdRxGainMu 0x3C661278#32 ∧
    Spec.ReadsAtReset .rdRxGainOmega 0x38D03CCF#32 ∧
    Spec.ReadsAtReset .rdRxAlpha 0x3DAE1322#32 ∧
    Spec.ReadsAtReset .rdRxBeta 0x3B777C6A#32 ∧
    Spec.ReadsAtReset .rdRxFmin 0xBE800000#32 ∧
    Spec.ReadsAtReset .rdRxFmax 0x3E800000#32 ∧
    Spec.ReadsAtReset .rdDdSkip 0x00000000#32 ∧
    Spec.ReadsAtReset .rdTapAddr 0x00000000#32 ∧
    Spec.ReadsAtReset .rdTapData 0x00000000#32

/-! ### The stream ports -/

/-- R153: PUSH_IQ enqueues `{q, i}` and counts it where the port is ready; where it is not, the beat has no step and the
host waits. -/
def Obligations.PushIqEnqueuesWhenReady : Prop :=
  ∀ (i q : Byte) (s : State),
    decode ⟨0x2000#16, BitVec.ofNat 32 (q.toNat * 2 ^ 8 + i.toNat)⟩ = .ok (.pushIq i q) ∧
    (s.mode = .run → s.ch.iq.length < Config.fifoDepth →
      exec (.pushIq i q) s =
        .next { Spec.done s with
          ch := { s.ch with iq := s.ch.iq ++ [BitVec.ofNat 16 (q.toNat * 2 ^ 8 + i.toNat)] }
          cnt := { s.cnt with inCount := s.cnt.inCount + 1#32 } }) ∧
    (s.mode ≠ .run ∨ Config.fifoDepth ≤ s.ch.iq.length → Spec.Waits (.pushIq i q) s)

/-- R155: POP_AUD returns and removes the oldest audio sample; with none, the host waits. -/
def Obligations.PopAudTakesTheOldestSample : Prop :=
  ∀ (s : State),
    (∀ p, decode ⟨0x2001#16, p⟩ = .ok .popAud) ∧
    (∀ v rest, s.ch.aout = v :: rest →
      exec .popAud s = .next { Spec.returned s (.aud v) with ch := { s.ch with aout := rest } }) ∧
    (s.ch.aout = [] → Spec.Waits .popAud s)

/-- R156: PUSH_AUD enqueues its sample where the port is ready; where it is not, the host waits. -/
def Obligations.PushAudEnqueuesWhenReady : Prop :=
  ∀ (v : F32) (s : State),
    decode ⟨0x2002#16, v⟩ = .ok (.pushAud v) ∧
    (s.mode = .run → s.ch.ain.length < Config.fifoDepth →
      exec (.pushAud v) s = .next { Spec.done s with ch := { s.ch with ain := s.ch.ain ++ [v] } }) ∧
    (s.mode ≠ .run ∨ Config.fifoDepth ≤ s.ch.ain.length → Spec.Waits (.pushAud v) s)

/-- R157: POP_BIT returns and removes the oldest bit; with none, the host waits. -/
def Obligations.PopBitTakesTheOldestBit : Prop :=
  ∀ (s : State),
    (∀ p, decode ⟨0x2003#16, p⟩ = .ok .popBit) ∧
    (∀ v rest, s.ch.bit = v :: rest →
      exec .popBit s = .next { Spec.returned s (.bit v) with ch := { s.ch with bit := rest } }) ∧
    (s.ch.bit = [] → Spec.Waits .popBit s)

/-! ### The firings -/

/-- R182: FIRE_MIX0 converts, mixes and pushes one sample and advances the oscillator. -/
def Obligations.FireMix0ConvertsAndMixes : Prop :=
  (∀ p, decode ⟨0x3000#16, p⟩ = .ok .fireMix0) ∧
  (∀ s : State, ¬ Spec.CanFire s s.ch.iq.length s.ch.mx0.length → Spec.Waits .fireMix0 s) ∧
  ∀ (s : State) (w : Half) (rest : List Half), s.ch.iq = w :: rest →
    Spec.CanFire s s.ch.iq.length s.ch.mx0.length →
    let a := convByte (BitVec.ofNat 8 w.toNat)
    let b := convByte (BitVec.ofNat 8 (w.toNat / 2 ^ 8))
    let c := num.cosTurn s.dp.mix0Acc
    let d := num.sinTurn s.dp.mix0Acc
    exec .fireMix0 s =
      .next { Spec.done s with
        ch := { s.ch with
          iq := rest
          mx0 := s.ch.mx0 ++ [⟨fsub (fmul a c) (fmul b d), fadd (fmul a d) (fmul b c)⟩] }
        dp := { s.dp with mix0Acc := s.dp.mix0Acc + s.cfg.csInc } }

/-- R184: FIRE_MIX1 mixes one real sample with the tone oscillator. -/
def Obligations.FireMix1MixesRealSample : Prop :=
  (∀ p, decode ⟨0x3005#16, p⟩ = .ok .fireMix1) ∧
  (∀ s : State, ¬ Spec.CanFire s s.ch.ain.length s.ch.mx1.length → Spec.Waits .fireMix1 s) ∧
  ∀ (s : State) (a : F32) (rest : List F32), s.ch.ain = a :: rest →
    Spec.CanFire s s.ch.ain.length s.ch.mx1.length →
    let c := num.cosTurn s.dp.mix1Acc
    let d := num.sinTurn s.dp.mix1Acc
    exec .fireMix1 s =
      .next { Spec.done s with
        ch := { s.ch with
          ain := rest
          mx1 := s.ch.mx1 ++ [⟨fsub (fmul a c) (fmul 0#32 d), fadd (fmul a d) (fmul 0#32 c)⟩] }
        dp := { s.dp with mix1Acc := s.dp.mix1Acc + s.cfg.tmInc } }

/-- R201, R202, R204, R205: the three FIR firings accept one sample, and push one inner product where one is due. That one
FIR_DOT serves both lanes of a complex sample (notes/assumptions/5) and that the delay line is a list which reads zero
beyond its end (notes/assumptions/11) are the model's readings. With `D = 0`, which no state in RUN reached from START has,
the phase modulo `D` is a free value: the model's choice (notes/assumptions/12). -/
def Obligations.FirFiringsShiftAndEmitWhenDue : Prop :=
  (∀ p, decode ⟨0x3001#16, p⟩ = .ok .fireFir0 ∧ decode ⟨0x3003#16, p⟩ = .ok .fireFir1 ∧
    decode ⟨0x3006#16, p⟩ = .ok .fireFir2) ∧
  (∀ s : State,
    (¬ Spec.CanFire s s.ch.mx0.length s.ch.f0.length → Spec.Waits .fireFir0 s) ∧
    (¬ Spec.CanFire s s.ch.qd.length s.ch.f1.length → Spec.Waits .fireFir1 s) ∧
    (¬ Spec.CanFire s s.ch.mx1.length s.ch.f2.length → Spec.Waits .fireFir2 s)) ∧
  (∀ (s : State) (x : C32) (rest : List C32), s.ch.mx0 = x :: rest →
    Spec.CanFire s s.ch.mx0.length s.ch.f0.length →
    let n := s.cfg.csNtaps
    let w := Spec.firView C32.zero n s.dp.fir0 x
    let y : C32 :=
      ⟨Config.firDot (Spec.tapsOf s 0#2 n) (w.map C32.re), Config.firDot (Spec.tapsOf s 0#2 n) (w.map C32.im)⟩
    exec .fireFir0 s =
      .next { Spec.done s with
        ch := { s.ch with
          mx0 := rest, f0 := s.ch.f0 ++ (if Spec.firDue n s.dp.fir0 then [y] else []) }
        dp := { s.dp with fir0 := Spec.firNext n s.cfg.csDecim s.dp.fir0 x } }) ∧
  (∀ (s : State) (x : F32) (rest : List F32), s.ch.qd = x :: rest →
    Spec.CanFire s s.ch.qd.length s.ch.f1.length →
    let n := s.cfg.fmdNtaps
    let y := Config.firDot (Spec.tapsOf s 1#2 n) (Spec.firView 0#32 n s.dp.fir1 x)
    exec .fireFir1 s =
      .next { Spec.done s with
        ch := { s.ch with
          qd := rest, f1 := s.ch.f1 ++ (if Spec.firDue n s.dp.fir1 then [y] else []) }
        dp := { s.dp with fir1 := Spec.firNext n s.cfg.fmdDecim s.dp.fir1 x } }) ∧
  (∀ (s : State) (x : C32) (rest : List C32), s.ch.mx1 = x :: rest →
    Spec.CanFire s s.ch.mx1.length s.ch.f2.length →
    let n := s.cfg.tmNtaps
    let w := Spec.firView C32.zero n s.dp.fir2 x
    let y : C32 :=
      ⟨Config.firDot (Spec.tapsOf s 2#2 n) (w.map C32.re), Config.firDot (Spec.tapsOf s 2#2 n) (w.map C32.im)⟩
    exec .fireFir2 s =
      .next { Spec.done s with
        ch := { s.ch with
          mx1 := rest, f2 := s.ch.f2 ++ (if Spec.firDue n s.dp.fir2 then [y] else []) }
        dp := { s.dp with fir2 := Spec.firNext n s.cfg.tmDecim s.dp.fir2 x } })

/-- R232: FIRE_QD pushes the scaled principal-value angle of `x · conj(prev)`, nothing for the first sample. For a zero
sample beside an infinite or NaN one the output is the NaN of R232's pseudocode and R9, where its corner case says
`G · (+0)`: that is the model's choice (notes/assumptions/24). -/
def Obligations.FireQdPushesScaledAngle : Prop :=
  (∀ p, decode ⟨0x3002#16, p⟩ = .ok .fireQd) ∧
  (∀ s : State, ¬ Spec.CanFire s s.ch.f0.length s.ch.qd.length → Spec.Waits .fireQd s) ∧
  ∀ (s : State) (x : C32) (rest : List C32), s.ch.f0 = x :: rest →
    Spec.CanFire s s.ch.f0.length s.ch.qd.length →
    let p := s.dp.qd.prev
    let re := fadd (fmul x.re p.re) (fmul x.im p.im)
    let im := fsub (fmul x.im p.re) (fmul x.re p.im)
    let t := num.atan2 im re
    let angle := if fzero re && fzero im then 0#32 else if feq t (fneg pi32) then pi32 else t
    exec .fireQd s =
      .next { Spec.done s with
        ch := { s.ch with
          f0 := rest, qd := s.ch.qd ++ (if s.dp.qd.havePrev then [fmul s.cfg.fmdGain angle] else []) }
        dp := { s.dp with qd := ⟨x, true⟩ } }

/-- R236: FIRE_DE is one step of the single-pole filter; AUD_COUNT counts it. -/
def Obligations.FireDeStepsTheFilter : Prop :=
  (∀ p, decode ⟨0x3004#16, p⟩ = .ok .fireDe) ∧
  (∀ s : State, ¬ Spec.CanFire s s.ch.f1.length s.ch.aout.length → Spec.Waits .fireDe s) ∧
  ∀ (s : State) (x : F32) (rest : List F32), s.ch.f1 = x :: rest →
    Spec.CanFire s s.ch.f1.length s.ch.aout.length →
    let y := fadd s.dp.deY (fmul s.cfg.fmdAlpha (fsub x s.dp.deY))
    exec .fireDe s =
      .next { Spec.done s with
        ch := { s.ch with f1 := rest, aout := s.ch.aout ++ [y] }
        dp := { s.dp with deY := y }
        cnt := { s.cnt with audCount := s.cnt.audCount + 1#32 } }

/-- R261: FIRE_RX waits a sample, or computes a symbol, updates both loops, raises the flags it met and pushes it; the
phase then advances. Two things here are the model's choice: at `mu = +0` a `-0` lane of `xp` follows the formula of R291
and not its prose (notes/assumptions/19), and `f` is clamped as R261 writes it also where R315 has it change sign
(notes/assumptions/23). In states no run reaches, `floor` and `wrap` are free values and `wait` is taken modulo 2^32
(notes/assumptions/12, 13). -/
def Obligations.FireRxFollowsThePseudocode : Prop :=
  (∀ p, decode ⟨0x3007#16, p⟩ = .ok .fireRx) ∧
  (∀ s : State, ¬ Spec.CanFire s s.ch.f2.length s.ch.rx.length → Spec.Waits .fireRx s) ∧
  ∀ (s : State) (x : C32) (rest : List C32), s.ch.f2 = x :: rest →
    Spec.CanFire s s.ch.f2.length s.ch.rx.length →
    let r := s.dp.rx
    let o := Spec.rxInstant num s.cfg r x
    (r.wait ≠ 0#32 →
      exec .fireRx s =
        .next { Spec.done s with
          ch := { s.ch with f2 := rest }
          dp := { s.dp with
            rx := Spec.advancePhase { r with xp := r.xc, xc := x, wait := r.wait - 1#32 } } }) ∧
    (r.wait = 0#32 →
      exec .fireRx s =
        .next { Spec.done s with
          ch := { s.ch with f2 := rest, rx := s.ch.rx ++ [o.2.1] }
          dp := { s.dp with rx := Spec.advancePhase o.1 }
          cnt := { s.cnt with symCount := s.cnt.symCount + 1#32 }
          fsat := s.fsat || o.2.2.1
          osat := s.osat || o.2.2.2.1
          nans := s.nans || o.2.2.2.2 })

/-- R311: FIRE_DD decides one bit from two symbols, or suppresses it, and keeps the symbol. -/
def Obligations.FireDdDecidesOneBit : Prop :=
  (∀ p, decode ⟨0x3008#16, p⟩ = .ok .fireDd) ∧
  (∀ s : State, ¬ Spec.CanFire s s.ch.rx.length s.ch.bit.length → Spec.Waits .fireDd s) ∧
  ∀ (s : State) (z : C32) (rest : List C32), s.ch.rx = z :: rest →
    Spec.CanFire s s.ch.rx.length s.ch.bit.length →
    let u := s.dp.dd
    let b : Byte := if fgt (fadd (fmul z.re u.zp.re) (fmul z.im u.zp.im)) 0#32 then 1#8 else 0#8
    (u.havePrev = true ∧ u.skipLeft = 0#16 →
      exec .fireDd s =
        .next { Spec.done s with
          ch := { s.ch with rx := rest, bit := s.ch.bit ++ [b] }
          dp := { s.dp with dd := ⟨z, true, u.skipLeft⟩ }
          cnt := { s.cnt with bitCount := s.cnt.bitCount + 1#32 } }) ∧
    (u.havePrev = true ∧ u.skipLeft ≠ 0#16 →
      exec .fireDd s =
        .next { Spec.done s with
          ch := { s.ch with rx := rest }, dp := { s.dp with dd := ⟨z, true, u.skipLeft - 1#16⟩ } }) ∧
    (u.havePrev = false →
      exec .fireDd s =
        .next { Spec.done s with
          ch := { s.ch with rx := rest }, dp := { s.dp with dd := ⟨z, true, u.skipLeft⟩ } })

/-- The model's choice (notes/assumptions/2): while a scheduled beat or firing that is not enabled waits, the core takes
a move of its own. -/
def Obligations.NotReadyStepsLeaveTheMoveToTheCore : Prop :=
  ∀ s : State,
    (¬ Spec.CanFire s s.ch.iq.length s.ch.mx0.length → exec .fireMix0 s = coreMove s) ∧
    (¬ Spec.CanFire s s.ch.mx0.length s.ch.f0.length → exec .fireFir0 s = coreMove s) ∧
    (¬ Spec.CanFire s s.ch.f0.length s.ch.qd.length → exec .fireQd s = coreMove s) ∧
    (¬ Spec.CanFire s s.ch.qd.length s.ch.f1.length → exec .fireFir1 s = coreMove s) ∧
    (¬ Spec.CanFire s s.ch.f1.length s.ch.aout.length → exec .fireDe s = coreMove s) ∧
    (¬ Spec.CanFire s s.ch.ain.length s.ch.mx1.length → exec .fireMix1 s = coreMove s) ∧
    (¬ Spec.CanFire s s.ch.mx1.length s.ch.f2.length → exec .fireFir2 s = coreMove s) ∧
    (¬ Spec.CanFire s s.ch.f2.length s.ch.rx.length → exec .fireRx s = coreMove s) ∧
    (¬ Spec.CanFire s s.ch.rx.length s.ch.bit.length → exec .fireDd s = coreMove s) ∧
    (s.mode ≠ .run ∨ Config.fifoDepth ≤ s.ch.iq.length → ∀ i q, exec (.pushIq i q) s = coreMove s) ∧
    (s.mode ≠ .run ∨ Config.fifoDepth ≤ s.ch.ain.length → ∀ v, exec (.pushAud v) s = coreMove s) ∧
    (s.ch.aout = [] → exec .popAud s = coreMove s) ∧ (s.ch.bit = [] → exec .popBit s = coreMove s)

/-- A firing is enabled exactly where R78 says, and there the operation that names it has the effect the core's own move
uses. The model's choice (notes/assumptions/2): the core's own move is one enabled firing, the schedule and what was
returned untouched, or, exactly where no firing is enabled, the fault `noStep`. -/
def Obligations.CoreMoveIsOneEnabledFiring : Prop :=
  ∀ s : State,
    (∀ u, (enabled u s = true ↔ Spec.Fireable u s) ∧
      (Spec.Fireable u s → exec (Spec.firingOf u) s = .next (Spec.done (fireUnit u s)))) ∧
    ((∀ u, enabled u s = false) → coreMove s = .fault .noStep) ∧
    ((∃ u, enabled u s = true) →
      ∃ u t, enabled u s = true ∧ coreMove s = .next t ∧ t = fireUnit u { s with choice := s.choice + 1 } ∧
        t.pending = s.pending ∧ t.ret = s.ret)

/-! ### Steps and encodings -/

/-- A step runs the decoded operation: the transaction scheduled first decodes to `i`, and the step is `exec i`. -/
def Obligations.StepRunsTheDecodedOperation : Prop :=
  ∀ (s : State) (t : Txn) (rest : List Event) (i : Instr), s.pending = .txn t :: rest → decode t = .ok i →
    step s = exec i s

/-- R105: exactly the codes with KIND 4..15, beats with SEL at least 4 and firings with SEL at least 9 are reserved, and
a step refuses them. -/
def Obligations.ReservedCodesAreRefused : Prop :=
  ∀ t : Txn,
    let reserved :=
      4 ≤ t.code.toNat / 2 ^ 12 ∨ (t.code.toNat / 2 ^ 12 = 2 ∧ 4 ≤ t.code.toNat % 2 ^ 12) ∨
        (t.code.toNat / 2 ^ 12 = 3 ∧ 9 ≤ t.code.toNat % 2 ^ 12)
    (reserved ↔ ∃ why, decode t = .error why) ∧
    (reserved → ∀ (s : State) (rest : List Event), s.pending = .txn t :: rest →
      ∃ why, step s = .refused (.reservedCode why))

/-- Decode and encode agree on every well-formed operation. -/
def Obligations.DecodeOfEncodeIsTheOperation : Prop :=
  ∀ i : Instr, wellFormed i = true → decode (encode i) = .ok i

/-- What the decoder reads is well-formed, and encoding it gives back every bit of the code. -/
def Obligations.DecodedOperationsAreWellFormedAndKeepTheCode : Prop :=
  ∀ (t : Txn) (i : Instr), decode t = .ok i → wellFormed i = true ∧ (encode i).code = t.code

/-- Words written out from R101 to R104 decode to the operations they stand for. -/
def Obligations.SampleWordsDecodeRight : Prop :=
  decode ⟨0x0008#16, 0#32⟩ = .ok (.rdStatus 0#2) ∧
  decode ⟨0x0046#16, 0#32⟩ = .ok (.rdCsDecim 2#2) ∧
  decode ⟨0x1004#16, 1#32⟩ = .ok (.wrCtrl 0#2 1#32) ∧
  decode ⟨0x1104#16, 0x3F800000#32⟩ = .ok (.wrTapData 0#2 0x3F800000#32) ∧
  decode ⟨0x0FFC#16, 0#32⟩ = .ok (.rdUnmapped 0xFFC#12) ∧
  decode ⟨0x2000#16, 0x80FF#32⟩ = .ok (.pushIq 255#8 128#8) ∧
  decode ⟨0x3007#16, 0#32⟩ = .ok .fireRx

/-! ### Invariants and whole-machine rules -/

/-- The invariants hold right after reset. -/
def Obligations.InvariantsHoldAtReset : Prop :=
  Inv State.reset ∧ CarrierBounded State.reset ∧ TimingBounded State.reset

/-- Every step keeps the structural invariant. -/
def Obligations.EveryStepKeepsTheInvariant : Prop :=
  ∀ s t : State, Inv s → step s = .next t → Inv t

/-- Every step keeps the carrier loop's phase within half a turn, and its frequency within `[RX_FMIN, RX_FMAX]` from the first
symbol on and `+0` before it. R271 bounds the frequency after every firing; that it is START's `+0` until the first symbol,
which need not lie within the bounds, is the model's reading of R261 and R143 (notes/assumptions/18). -/
def Obligations.EveryStepKeepsTheCarrierBounded : Prop :=
  ∀ s t : State, CarrierBounded s → step s = .next t → CarrierBounded t

/-- Every step keeps the timing loop's period, offset and wait within their bounds (the timing half of R271, R297). -/
def Obligations.EveryStepKeepsTheTimingBounded : Prop :=
  ∀ s t : State, TimingBounded s → step s = .next t → TimingBounded t

/-- R80, R381: two different enabled firings do not disable each other, and either order gives the same state. -/
def Obligations.EnabledFiringsCommute : Prop :=
  ∀ (s : State) (u v : UnitId), u ≠ v → enabled u s = true → enabled v s = true →
    enabled v (fireUnit u s) = true ∧ enabled u (fireUnit v s) = true ∧
      fireUnit v (fireUnit u s) = fireUnit u (fireUnit v s)

/-- Left to itself, the core comes to rest: with nothing scheduled, after at most `work s` firings no step is left. That
the core moves while nothing is scheduled, and the fault `noStep` where nothing can, are the model's choice
(notes/assumptions/2). -/
def Obligations.UnscheduledCoreComesToRest : Prop :=
  ∀ s : State, s.pending = [] → Host.Core.run Sys2Proof.core (work s + 1) s = .fault Fault.noStep

/-- R376: a busy core whose output ports have room always has an enabled firing. -/
def Obligations.BusyCoreWithRoomCanMove : Prop :=
  ∀ s : State, s.mode = .run → Spec.anyBusy s.ch = true → s.ch.aout.length < Config.fifoDepth →
    s.ch.bit.length < Config.fifoDepth → ∃ u, enabled u s = true

/-- R79: with BUSY = 0, no unit has an enabled firing. -/
def Obligations.NothingEnabledWithoutBusy : Prop :=
  ∀ s : State, busy s = Spec.anyBusy s.ch ∧ (busy s = false → ∀ u, enabled u s = false)

/-- R67: no operation changes a configuration register or a tap while the core runs. -/
def Obligations.ConfigurationIsFrozenInRun : Prop :=
  ∀ (i : Instr) (s t : State), s.mode = .run → exec i s = .next t → t.cfg = s.cfg ∧ t.taps = s.taps

/-- R33: STATE changes only by SOFT_RESET to IDLE, and by START from IDLE or ERROR to RUN or ERROR. -/
def Obligations.StateChangesOnlyByCommand : Prop :=
  ∀ (i : Instr) (s t : State), exec i s = .next t → t.mode ≠ s.mode →
    ∃ sub v, i = .wrCtrl sub v ∧
      ((v.getLsbD 1 = true ∧ t.mode = .idle) ∨
        (v.getLsbD 1 = false ∧ v.getLsbD 0 = true ∧ s.mode ≠ .run ∧ (t.mode = .run ∨ t.mode = .error)))

/-- R14, R335: a sticky flag falls only by its bit in a write of STATUS, by a successful START or by SOFT_RESET. -/
def Obligations.StickyFlagsFallOnlyByClearing : Prop :=
  ∀ (i : Instr) (s t : State), exec i s = .next t →
    (s.fsat = true ∧ t.fsat = false) ∨ (s.osat = true ∧ t.osat = false) ∨ (s.nans = true ∧ t.nans = false) →
    (∃ sub v, i = .wrStatus sub v ∧
      (s.fsat = true → t.fsat = false → v.getLsbD 8 = true) ∧
      (s.osat = true → t.osat = false → v.getLsbD 9 = true) ∧
      (s.nans = true → t.nans = false → v.getLsbD 10 = true)) ∨
    (∃ sub v, i = .wrCtrl sub v ∧ (v.getLsbD 1 = true ∨ (v.getLsbD 0 = true ∧ s.mode ≠ .run ∧ t.mode = .run)))

/-- R77, R238: the FM half neither reads nor writes the tone half. -/
def Obligations.FmHalfIgnoresTheToneHalf : Prop :=
  ∀ (u : UnitId) (s t : State), u ∈ Spec.fmUnits → Spec.fmHalf s = Spec.fmHalf t →
    Spec.fmHalf (fireUnit u s) = Spec.fmHalf (fireUnit u t) ∧ Spec.toneHalf (fireUnit u s) = Spec.toneHalf s

/-! ### The units' laws -/

/-- R186: after `n` firings the oscillator's phase has advanced by `n · inc` modulo 2^32. -/
def Obligations.OscillatorAccumulatesExactly : Prop :=
  ∀ (n : Nat) (s : State),
    (n ≤ s.ch.iq.length → (fireMix0^[n] s).dp.mix0Acc = s.dp.mix0Acc + BitVec.ofNat 32 n * s.cfg.csInc) ∧
    (n ≤ s.ch.ain.length → (fireMix1^[n] s).dp.mix1Acc = s.dp.mix1Acc + BitVec.ofNat 32 n * s.cfg.tmInc)

/-- R183: the conversion's named values, its symmetry, and that no result is zero, NaN or infinite. -/
def Obligations.ByteConversionIsCentred : Prop :=
  convByte 0#8 = 0xBF800000#32 ∧ convByte 127#8 = 0xBB808081#32 ∧ convByte 128#8 = 0x3B808081#32 ∧
  convByte 255#8 = 0x3F800000#32 ∧
  ∀ u : Byte, ffinite (convByte u) = true ∧ fzero (convByte u) = false ∧
    convByte (255#8 - u) = fneg (convByte u)

/-- R207: after `n` accepted samples a FIR has given no output before its first full window, and then one for every
`D`-th sample. -/
def Obligations.FirOutputCountFollowsRateLaw : Prop :=
  ∀ {α : Type} (zero : α) (n d : Half) (xs : List α), n ≠ 0#16 → d ≠ 0#16 →
    (Spec.firRun zero n d ⟨[], 0#16, 0#16⟩ xs).2.length =
      if xs.length < n.toNat then 0 else (xs.length - n.toNat) / d.toNat + 1

/-- R203: the `k`-th output of a FIR is the inner product over exactly `x[k·D], …, x[k·D + N - 1]`, newest first. -/
def Obligations.FirOutputsAreTheDecimatedWindows : Prop :=
  ∀ {α : Type} (zero : α) (n d : Half) (xs : List α), n ≠ 0#16 → d ≠ 0#16 → n.toNat ≤ xs.length →
    (Spec.firRun zero n d ⟨[], 0#16, 0#16⟩ xs).2 =
      (List.range ((xs.length - n.toNat) / d.toNat + 1)).map
        (fun k => ((xs.drop (k * d.toNat)).take n.toNat).reverse)

/-- R232, R234: QD gives one output less than it takes samples, and none for none; the outputs are the gain times the
angles of `x · conj(p)` over the neighbours `p`, `x` of the stream, in order; and for an input of constant envelope whose
phase step is a quarter turn, forwards or backwards, every output is `G·HALFPI32` or `G·(-HALFPI32)`, bit for bit. (The
last clause asks that `re·im` of the first sample is finite and its envelope is not 0; that R11's special cases bind every
implementation's `atan2` is the model's reading, notes/assumptions/4. For a zero sample beside an infinite or NaN one the
output is the NaN of R232's pseudocode and R9, where its corner case says `G · (+0)`: that is the model's choice,
notes/assumptions/24.) -/
def Obligations.QdGivesOneOutputLess : Prop :=
  ∀ g : F32,
    (∀ xs : List C32,
      (Spec.qdRun num g ⟨C32.zero, false⟩ xs).2.length = xs.length - 1 ∧
      (Spec.qdRun num g ⟨C32.zero, false⟩ xs).2 =
        List.zipWith
          (fun p x =>
            fmul g (carg num ⟨fadd (fmul x.re p.re) (fmul x.im p.im), fsub (fmul x.im p.re) (fmul x.re p.im)⟩))
          xs xs.tail) ∧
    ∀ (z : C32) (n : Nat), ffinite (fmul z.re z.im) = true →
      fzero (fadd (fmul z.re z.re) (fmul z.im z.im)) = false →
      (Spec.qdRun num g ⟨C32.zero, false⟩ (Spec.quarterTurns z n)).2 =
        List.replicate (n - 1) (fmul g 0x3FC90FDB#32) ∧
      (Spec.qdRun num g ⟨C32.zero, false⟩ ((Spec.quarterTurns z n).map Spec.conjugate)).2 =
        List.replicate (n - 1) (fmul g 0xBFC90FDB#32)

/-- R233: the angle of a sample without NaN lies in `(-PI32, +PI32]`. -/
def Obligations.AngleIsAPrincipalValue : Prop :=
  ∀ w : C32, fnan w.re = false → fnan w.im = false →
    flt (fneg pi32) (carg num w) = true ∧ fle (carg num w) pi32 = true

/-- R11: whatever the implementation's functions are, the oscillator's lanes lie in `[-1, 1]` and are exact at the
quarter turns. -/
def Obligations.OscillatorLanesAreBounded : Prop :=
  (∀ a : Word, Between fnegOne (num.cosTurn a) fone ∧ Between fnegOne (num.sinTurn a) fone) ∧
  (num.cosTurn 0#32, num.sinTurn 0#32) = (fone, 0#32) ∧
  (num.cosTurn 0x40000000#32, num.sinTurn 0x40000000#32) = (0#32, fone) ∧
  (num.cosTurn 0x80000000#32, num.sinTurn 0x80000000#32) = (fnegOne, 0#32) ∧
  (num.cosTurn 0xC0000000#32, num.sinTurn 0xC0000000#32) = (0#32, fnegOne)

/-- R293: after a symbol that left `wait` at `w`, RX emits nothing on the next `w` samples, and then is at a symbol
instant: the next sample gives a symbol. -/
def Obligations.NextSymbolComesAfterTheWait : Prop :=
  ∀ (n : Machine.Num) (g : CfgRegs) (r : Rx) (xs : List C32) (x : C32), xs.length = r.wait.toNat →
    (Spec.rxRun n g r xs).2 = [] ∧ (Spec.rxRun n g r xs).1.wait = 0#32 ∧
      ∃ z, (Spec.rxRun n g r (xs ++ [x])).2 = [z]

/-- R269: negating a symbol off the imaginary axis leaves the phase error as it is. -/
def Obligations.PhaseErrorIgnoresNegation : Prop :=
  ∀ z : C32, fnan z.re = false → fzero z.re = false →
    phaseError num (decision (Spec.negate z)) (Spec.negate z) = phaseError num (decision z) z

/-- R267: for a phase within two turns (`0x41490FDB` is `4·PI32`, beyond what R267 reaches), `wrap` is the loops of the
rule: a phase in `[-PI32, +PI32]` stays; above, `TWOPI32` comes off and the loops go on; below, it is added; and the
result lies in `[-PI32, +PI32]`. -/
def Obligations.WrapLandsWithinHalfATurn : Prop :=
  (∀ p : F32, Between (fneg pi32) p pi32 → wrap p = p) ∧
  ∀ p : F32, Between (fneg 0x41490FDB#32) p 0x41490FDB#32 →
    Between (fneg pi32) (wrap p) pi32 ∧
    (fgt p pi32 = true → wrap p = wrap (fsub p twoPi32)) ∧
    (flt p (fneg pi32) = true → wrap p = wrap (fadd p twoPi32))

/-- R313: `b` symbols after START give `max(0, b - 1 - DD_SKIP)` bits. -/
def Obligations.BitCountFollowsTheDiscardLaw : Prop :=
  ∀ (skip : Half) (zs : List C32),
    (Spec.ddRun ⟨C32.zero, false, skip⟩ zs).2.length = zs.length - 1 - skip.toNat

/-- R314, R315: negating, or conjugating, every symbol entering DD leaves the bit stream as it is. (Of R315, the
half about DD; notes/assumptions/23 speaks of the half about RX.) -/
def Obligations.BitsIgnoreNegationAndConjugation : Prop :=
  ∀ (skip : Half) (zs : List C32),
    (Spec.ddRun ⟨C32.zero, false, skip⟩ (zs.map Spec.negate)).2 = (Spec.ddRun ⟨C32.zero, false, skip⟩ zs).2 ∧
    (Spec.ddRun ⟨C32.zero, false, skip⟩ (zs.map Spec.conjugate)).2 = (Spec.ddRun ⟨C32.zero, false, skip⟩ zs).2

/-! ### The arithmetic -/

/-- R8, R9: rounding gives a nearest finite pattern, and of two equally near ones the even one. -/
def Obligations.RoundingIsToNearestTiesToEven : Prop :=
  ∀ p q m : Nat, 0 < q → roundMag p q < 0x7F800000 → m < 0x7F800000 →
    let err : Nat → Int := fun k => |(p : Int) - (magUnits k * q : Nat)|
    err (roundMag p q) ≤ err m ∧ (err (roundMag p q) = err m → m ≠ roundMag p q → roundMag p q % 2 = 0)

/-- R9: a sum of finite values is a zero or has the rounding of the exact sum, with its sign; infinities and NaNs as
IEEE-754 has them; a difference is the sum with the negation. That every NaN result is `0x7FC00000` is the model's choice
(notes/assumptions/7: R9 says so, 93_implementation_defined.md item 9 admits any NaN encoding). -/
def Obligations.AdditionRoundsTheExactSum : Prop :=
  ∀ a b : F32,
    (ffinite a = true → ffinite b = true →
      let exact := fval a + fval b
      (exact = 0 → fzero (fadd a b) = true ∧ (fsign (fadd a b) = true ↔ fsign a = true ∧ fsign b = true)) ∧
      (exact ≠ 0 → fmag (fadd a b) = roundMag exact.natAbs 1 ∧ (fsign (fadd a b) = true ↔ exact < 0))) ∧
    (fnan a = true ∨ fnan b = true → fadd a b = 0x7FC00000#32) ∧
    (finf a = true → finf b = true → fsign a ≠ fsign b → fadd a b = 0x7FC00000#32) ∧
    (finf a = true → finf b = true → fsign a = fsign b → fadd a b = a) ∧
    (finf a = true → ffinite b = true → fadd a b = a ∧ fadd b a = a) ∧
    fsub a b = fadd a (b ^^^ 0x80000000#32)

/-- R9: a product of finite values has the rounding of the exact product, negative exactly when the signs differ; an
infinity times a zero and a NaN operand give a NaN, an infinity times anything else an infinity with the product's sign.
That the NaN is `0x7FC00000` is the model's choice (notes/assumptions/7: R9 says so, 93_implementation_defined.md item 9
admits any NaN encoding). R8: a rounding is an infinity exactly from half a unit in the last place above the greatest
finite value on. -/
def Obligations.MultiplicationRoundsTheExactProduct : Prop :=
  (∀ a b : F32,
    (ffinite a = true → ffinite b = true →
      fmag (fmul a b) = roundMag (fval a * fval b).natAbs (2 ^ 149) ∧
      (fsign (fmul a b) = true ↔ fsign a ≠ fsign b)) ∧
    (fnan a = true ∨ fnan b = true → fmul a b = 0x7FC00000#32) ∧
    (finf a = true → fzero b = true → fmul a b = 0x7FC00000#32 ∧ fmul b a = 0x7FC00000#32) ∧
    (finf a = true → fnan b = false → fzero b = false →
      finf (fmul a b) = true ∧ finf (fmul b a) = true ∧
      (fsign (fmul a b) = true ↔ fsign a ≠ fsign b) ∧ (fsign (fmul b a) = true ↔ fsign a ≠ fsign b))) ∧
  ∀ p q : Nat, 0 < q →
    roundMag p q ≤ 0x7F800000 ∧ (roundMag p q = 0x7F800000 ↔ (2 ^ 25 - 1) * 2 ^ 252 * q ≤ p)
end

