-- ==== Sys2Proof/Laws/Float.lean ====
section
/-! SUPPORT. The first facts about binary32 patterns: signs, magnitudes, NaN, negated operands, and what clamping
gives (R9, R10). -/

namespace Sys2Proof.Machine

@[simp] theorem fneg_fneg (a : F32) : fneg (fneg a) = a := by simp [fneg]

@[simp] theorem fsign_fneg (a : F32) : fsign (fneg a) = !fsign a := by
  simp only [fsign, fneg, BitVec.msb_xor]
  have : (0x80000000#32 : F32).msb = true := by decide
  simp [this]

/-- A pattern's magnitude is its low 31 bits. -/
theorem fmag_eq_low (a : F32) : fmag a = (a.setWidth 31).toNat := by simp [fmag]

@[simp] theorem fmag_fneg (a : F32) : fmag (fneg a) = fmag a := by
  rw [fmag_eq_low, fmag_eq_low]
  congr 1
  ext i hi
  simp only [fneg, BitVec.getElem_setWidth, BitVec.getLsbD_xor]
  have : (0x80000000#32 : F32).getLsbD i = false := by
    have h : ∀ j : Fin 31, (0x80000000#32 : F32).getLsbD j.val = false := by decide
    exact h ⟨i, hi⟩
  simp [this]

@[simp] theorem fnan_fneg (a : F32) : fnan (fneg a) = fnan a := by simp [fnan]

@[simp] theorem finf_fneg (a : F32) : finf (fneg a) = finf a := by simp [finf]

@[simp] theorem ffinite_fneg (a : F32) : ffinite (fneg a) = ffinite a := by simp [ffinite]

@[simp] theorem fzero_fneg (a : F32) : fzero (fneg a) = fzero a := by simp [fzero]

@[simp] theorem fval_fneg (a : F32) : fval (fneg a) = -fval a := by
  cases h : fsign a <;> simp [fval, h]

@[simp] theorem ford_fneg (a : F32) : ford (fneg a) = -ford a := by
  cases h : fsign a <;> simp [ford, h]

@[simp] theorem fnan_qnan : fnan qnan = true := by decide

theorem ffinite_of_not (a : F32) : ffinite a = (!fnan a && !finf a) := by
  rw [Bool.eq_iff_iff]
  simp only [ffinite, fnan, finf, Bool.and_eq_true, Bool.not_eq_true', decide_eq_true_eq, decide_eq_false_iff_not]
  omega

theorem flt_irrefl (a : F32) : flt a a = false := by simp [flt]

/-- Between bounds that are no NaN and in order, clamping gives a value between them. -/
theorem fclamp_between {v lo hi : F32} (hv : fnan v = false) (h : fle lo hi = true) :
    fle lo (fclamp v lo hi) = true ∧ fle (fclamp v lo hi) hi = true := by
  simp only [fle, Bool.and_eq_true, Bool.not_eq_true', decide_eq_true_eq] at h
  obtain ⟨⟨hlo, hhi⟩, ho⟩ := h
  unfold fclamp fgt flt
  simp only [hv, hlo, hhi, Bool.not_false, Bool.true_and, decide_eq_true_eq]
  split
  · simp [fle, hlo, hhi, ho]
  · split
    · simp [fle, hlo, hhi, ho]
    · simp only [fle, hv, hlo, hhi, Bool.not_false, Bool.true_and, decide_eq_true_eq]
      omega

/-- Clamping never makes a NaN of a value that is none. -/
theorem fnan_fclamp {v lo hi : F32} (hv : fnan v = false) (hl : fnan lo = false) (hh : fnan hi = false) :
    fnan (fclamp v lo hi) = false := by
  unfold fclamp
  split
  · exact hl
  · split
    · exact hh
    · exact hv

/-! ### A pattern is its sign and its magnitude; negated operands -/

theorem fsign_eq_decide (a : F32) : fsign a = decide (2 ^ 31 ≤ a.toNat) := by
  simp [fsign, BitVec.msb_eq_decide]

/-- A pattern is its sign and its magnitude. -/
theorem f32_ext {a b : F32} (hs : fsign a = fsign b) (hm : fmag a = fmag b) : a = b := by
  apply BitVec.eq_of_toNat_eq
  simp only [fsign_eq_decide, decide_eq_decide] at hs
  simp only [fmag] at hm
  have := a.isLt
  have := b.isLt
  omega

theorem fsign_fpack {neg : Bool} {m : Nat} (hm : m < 2 ^ 31) : fsign (fpack neg m) = neg := by
  cases neg <;> simp [fsign_eq_decide, fpack] <;> omega

theorem fmag_fpack {neg : Bool} {m : Nat} (hm : m < 2 ^ 31) : fmag (fpack neg m) = m := by
  cases neg <;> simp [fmag, fpack] <;> omega

theorem roundMag_lt (p q : Nat) : roundMag p q < 2 ^ 31 :=
  lt_of_le_of_lt (Nat.min_le_right _ _) (by decide)

/-- Packing with the other sign is negation. -/
theorem fpack_not (neg : Bool) {m : Nat} (hm : m < 2 ^ 31) : fpack (!neg) m = fneg (fpack neg m) :=
  f32_ext (by rw [fsign_fneg, fsign_fpack hm, fsign_fpack hm]) (by rw [fmag_fneg, fmag_fpack hm, fmag_fpack hm])

theorem fmul_comm (a b : F32) : fmul a b = fmul b a := by
  have hs : (fsign a != fsign b) = (fsign b != fsign a) := by cases fsign a <;> cases fsign b <;> rfl
  simp only [fmul, hs, Bool.or_comm (fnan a), Bool.or_comm (finf a), Bool.or_comm (fzero a),
    Nat.mul_comm (magUnits (fmag a))]

/-- A product that is no NaN is negated with its first operand. -/
theorem fmul_fneg_left {a b : F32} (h : fnan (fmul a b) = false) : fmul (fneg a) b = fneg (fmul a b) := by
  have hx : ((!fsign a) != fsign b) = !(fsign a != fsign b) := by cases fsign a <;> cases fsign b <;> rfl
  have hi : (0x7F800000 : Nat) < 2 ^ 31 := by decide
  simp only [fmul, fnan_fneg, finf_fneg, fzero_fneg, fmag_fneg, fsign_fneg, hx] at h ⊢
  split at h
  · simp at h
  · split at h
    · split at h
      · simp at h
      · simp only [*, ↓reduceIte, Bool.false_eq_true, fpack_not _ hi]
    · simp only [*, ↓reduceIte, Bool.false_eq_true, fpack_not _ (roundMag_lt _ _)]

/-- A product that is no NaN is negated with its second operand. -/
theorem fmul_fneg_right {a b : F32} (h : fnan (fmul a b) = false) : fmul a (fneg b) = fneg (fmul a b) := by
  rw [fmul_comm, fmul_fneg_left (by rwa [fmul_comm]), fmul_comm]

theorem fadd_comm {a b : F32} (ha : fnan a = false) (hb : fnan b = false) : fadd a b = fadd b a := by
  by_cases hi : finf a = true <;> by_cases hj : finf b = true
  · simp only [fadd, ha, hb, hi, hj, Bool.or_self, Bool.false_eq_true, ↓reduceIte, Bool.true_and]
    cases hs : fsign a <;> cases ht : fsign b <;> simp
    all_goals
      refine f32_ext (hs.trans ht.symm) ?_
      simp only [finf, decide_eq_true_eq] at hi hj
      rw [hi, hj]
  all_goals simp_all [fadd, Int.add_comm (fval a), Bool.and_comm (fsign a)]

/-- A finite value and its negation sum to `+0`. -/
theorem fadd_fneg_self {a : F32} (h : ffinite a = true) : fadd a (fneg a) = 0#32 := by
  rw [ffinite_of_not, Bool.and_eq_true, Bool.not_eq_true', Bool.not_eq_true'] at h
  obtain ⟨hn, hi⟩ := h
  simp only [fadd, fnan_fneg, finf_fneg, fval_fneg, fsign_fneg, hn, hi, Bool.or_self, Bool.false_eq_true, ↓reduceIte,
    Int.add_right_neg, Bool.and_not_self]
  decide

/-- A zero has the value 0. -/
theorem fval_of_fzero {a : F32} (h : fzero a = true) : fval a = 0 := by
  simp only [fzero, decide_eq_true_eq] at h
  simp [fval, h, magUnits]

/-- A finite value times a zero is a zero. -/
theorem fzero_fmul {a b : F32} (ha : ffinite a = true) (hb : fzero b = true) : fzero (fmul a b) = true := by
  simp only [ffinite, fzero, decide_eq_true_eq] at ha hb
  have h : roundMag (magUnits (fmag a) * magUnits 0) unitsPerOne = 0 := by
    simp [magUnits, roundMag, unitsPerOne]
  simp only [fmul, fnan, finf, hb, h, fzero, Bool.or_eq_true, decide_eq_true_eq]
  rw [if_neg (by omega), if_neg (by omega), fmag_fpack (by decide)]

/-- A sum of zeros is a zero. -/
theorem fzero_fadd {a b : F32} (ha : fzero a = true) (hb : fzero b = true) : fzero (fadd a b) = true := by
  have va := fval_of_fzero ha
  have vb := fval_of_fzero hb
  simp only [fzero, decide_eq_true_eq] at ha hb
  simp [fadd, fnan, finf, ha, hb, va, vb, fzero, fmag_fpack]

theorem fsub_fneg (a b : F32) : fsub a (fneg b) = fadd a b := by rw [fsub, fneg_fneg]

/-- With bounds that are each other's negations, clamping commutes with negation: the condition under which the carrier
frequency of a conjugated stream is the negation (R315, notes/assumptions/23). -/
theorem fclamp_fneg {v hi : F32} (hs : fsign hi = false) :
    fclamp (fneg v) (fneg hi) hi = fneg (fclamp v (fneg hi) hi) := by
  have hpos : 0 ≤ ford hi := by simp [ford, hs]
  unfold fclamp fgt flt
  simp only [fnan_fneg, ford_fneg, Bool.and_eq_true, Bool.not_eq_true', decide_eq_true_eq]
  split <;> split <;> (try split) <;> (try split) <;> simp_all <;> omega

end Sys2Proof.Machine
end

