-- ==== Sys2Proof/Laws/Demod.lean ====
section
/-! SUPPORT. What the discriminator measures (43_fm_demodulator.md R234): the product is `x · conj(p)` of the represented
numbers wherever its six roundings are exact; in exact arithmetic the angle of a constant-envelope input's neighbours is
its phase step, which the gain scales; how the gain enters an output; and the corner case of R232 for a zero sample. -/

namespace Sys2Proof.Machine

/-- R232, R234: where no operation rounds, `conjProduct` is `x · conj(p)` of the represented numbers. -/
theorem conjProduct_exact {x p : C32}
    (h1 : binaryValue (fmul x.re p.re) = binaryValue x.re * binaryValue p.re)
    (h2 : binaryValue (fmul x.im p.im) = binaryValue x.im * binaryValue p.im)
    (h3 : binaryValue (fmul x.im p.re) = binaryValue x.im * binaryValue p.re)
    (h4 : binaryValue (fmul x.re p.im) = binaryValue x.re * binaryValue p.im)
    (hs : binaryValue (conjProduct x p).re = binaryValue (fmul x.re p.re) + binaryValue (fmul x.im p.im))
    (hd : binaryValue (conjProduct x p).im = binaryValue (fmul x.im p.re) - binaryValue (fmul x.re p.im)) :
    (⟨(binaryValue (conjProduct x p).re : ℝ), (binaryValue (conjProduct x p).im : ℝ)⟩ : ℂ) =
      ⟨(binaryValue x.re : ℝ), (binaryValue x.im : ℝ)⟩ *
        (starRingEnd ℂ) ⟨(binaryValue p.re : ℝ), (binaryValue p.im : ℝ)⟩ := by
  apply Complex.ext
  · simp [hs, h1, h2]
  · simp [hd, h3, h4]; ring

/-- R234: the angle between neighbours of a constant-envelope input `A·exp(i(θ0 + n·ω0))` is the phase step `ω0`. -/
theorem arg_of_constant_envelope {A θ ω : ℝ} (hA : 0 < A) (hω : |ω| < Real.pi) (n : ℕ) :
    (A * Complex.exp ((θ + (n + 1) * ω : ℝ) * Complex.I) *
      (starRingEnd ℂ) (A * Complex.exp ((θ + n * ω : ℝ) * Complex.I))).arg = ω := by
  have h : A * Complex.exp ((θ + (n + 1) * ω : ℝ) * Complex.I) *
      (starRingEnd ℂ) (A * Complex.exp ((θ + n * ω : ℝ) * Complex.I)) =
        ((A * A : ℝ) : ℂ) * Complex.exp (ω * Complex.I) := by
    rw [map_mul, Complex.conj_ofReal, ← Complex.exp_conj, map_mul, Complex.conj_ofReal, Complex.conj_I,
      mul_mul_mul_comm, ← Complex.exp_add, ← Complex.ofReal_mul]
    congr 2
    push_cast
    ring
  have hlt := abs_lt.mp hω
  rw [h, Complex.arg_real_mul _ (mul_pos hA hA), Complex.arg_exp_mul_I,
    (toIocMod_eq_self Real.two_pi_pos).mpr ⟨hlt.1, by linarith⟩]

/-- R234: with `G = quad_rate / (2π·max_dev)` the output is the frequency as a fraction of `max_dev`. -/
theorem gain_gives_fraction_of_max_dev {A θ ω quadRate maxDev G : ℝ} (hA : 0 < A) (hω : |ω| < Real.pi) (n : ℕ)
    (hG : G = quadRate / (2 * Real.pi * maxDev)) :
    G * (A * Complex.exp ((θ + (n + 1) * ω : ℝ) * Complex.I) *
      (starRingEnd ℂ) (A * Complex.exp ((θ + n * ω : ℝ) * Complex.I))).arg =
        ω * quadRate / (2 * Real.pi) / maxDev := by
  rw [arg_of_constant_envelope hA hω, hG]
  field_simp

/-- Once a sample is held, the output is the gain times the angle of the sample's product with it (R232). -/
@[simp] theorem qdAccept_held (n : Num) (gain : F32) (p x : C32) :
    qdAccept n gain ⟨p, true⟩ x = (⟨x, true⟩, some (fmul gain (carg n (conjProduct x p)))) := rfl

/-- The first sample is held and gives nothing (R232). -/
@[simp] theorem qdAccept_first (n : Num) (gain : F32) (p x : C32) :
    qdAccept n gain ⟨p, false⟩ x = (⟨x, true⟩, none) := rfl

/-- The corner case of R232, where it and the pseudocode agree (notes/assumptions/24): a zero sample beside a finite one,
in either order, has the angle `+0`. -/
theorem carg_conjProduct_zero (n : Num) {x p : C32} (hx : ffinite x.re = true ∧ ffinite x.im = true)
    (hp : fzero p.re = true ∧ fzero p.im = true) :
    carg n (conjProduct x p) = 0#32 ∧ carg n (conjProduct p x) = 0#32 := by
  have hxp : ∀ {a b : F32}, ffinite a = true → fzero b = true → fzero (fmul b a) = true := fun ha hb => by
    rw [fmul_comm]; exact fzero_fmul ha hb
  have h : ∀ {a b c d : F32}, fzero a = true → fzero b = true → fzero c = true → fzero d = true →
      carg n ⟨fadd a b, fsub c d⟩ = 0#32 := fun ha hb hc hd => by
    simp [carg, fzero_fadd ha hb, fsub, fzero_fadd hc ((fzero_fneg _).trans hd)]
  exact ⟨h (fzero_fmul hx.1 hp.1) (fzero_fmul hx.2 hp.2) (fzero_fmul hx.2 hp.1) (fzero_fmul hx.1 hp.2),
    h (hxp hx.1 hp.1) (hxp hx.2 hp.2) (hxp hx.1 hp.2) (hxp hx.2 hp.1)⟩

end Sys2Proof.Machine
end

