-- ==== Sys2Proof/Laws/Fields.lean ====
section
/-! SUPPORT. The fields of a transaction code read back from the code they were put in (R100, R101). -/

namespace Sys2Proof

section Pieces
variable {m n p : Nat}

theorem extract_high (k : BitVec m) (a : BitVec n) : BitVec.extractLsb' n m (k ++ a) = k := by
  ext i hi
  simp [BitVec.getLsbD_append, BitVec.getLsbD_eq_getElem, hi]

theorem extract_low (k : BitVec m) (a : BitVec n) : BitVec.extractLsb' 0 n (k ++ a) = a := by
  ext i hi
  simp [BitVec.getLsbD_append, hi]

theorem extract_top (k : BitVec m) (r : BitVec p) (b : BitVec n) :
    BitVec.extractLsb' (p + n) m (k ++ r ++ b) = k := by
  ext i hi
  simp [BitVec.getLsbD_append, show ¬ p + n + i < n by omega, show ¬ p + n + i - n < p by omega,
    show p + n + i - n - p = i by omega, BitVec.getLsbD_eq_getElem, hi]

theorem extract_bottom (k : BitVec m) (r : BitVec p) (b : BitVec n) :
    BitVec.extractLsb' 0 (p + n) (k ++ r ++ b) = r ++ b := by
  ext i hi
  simp only [BitVec.getElem_extractLsb', BitVec.getLsbD_append, BitVec.getElem_append, Nat.zero_add]
  by_cases h : i < n
  · simp [h]
  · simp [h, show i - n < p by omega]

theorem extract_append (c : BitVec (m + n)) : BitVec.extractLsb' n m c ++ BitVec.extractLsb' 0 n c = c := by
  ext i hi
  simp only [BitVec.getElem_append, BitVec.getElem_extractLsb']
  split
  · simp [BitVec.getLsbD_eq_getElem, hi]
  · simp [show n + (i - n) = i by omega, BitVec.getLsbD_eq_getElem, hi]

end Pieces

@[simp] theorem kindField_busCode (k : BitVec 4) (r : BitVec 10) (b : BitVec 2) :
    kindField (busCode k r b) = k := extract_top k r b

@[simp] theorem selField_busCode (k : BitVec 4) (r : BitVec 10) (b : BitVec 2) :
    selField (busCode k r b) = r ++ b := extract_bottom k r b

@[simp] theorem regField_append (r : BitVec 10) (b : BitVec 2) : regField (r ++ b) = r := extract_high r b

@[simp] theorem subField_append (r : BitVec 10) (b : BitVec 2) : subField (r ++ b) = b := extract_low r b

/-- A 12-bit address is its register number and its low two bits (R71). -/
theorem regField_append_subField (a : BitVec 12) : regField a ++ subField a = a :=
  extract_append (m := 10) (n := 2) a

@[simp] theorem kindField_append (k : BitVec 4) (a : BitVec 12) : kindField (k ++ a) = k := extract_high k a

@[simp] theorem selField_append (k : BitVec 4) (a : BitVec 12) : selField (k ++ a) = a := extract_low k a

/-- A code is its KIND and its SEL (R100). -/
theorem kindField_append_selField (c : Half) : kindField c ++ selField c = c :=
  extract_append (m := 4) (n := 12) c

end Sys2Proof
end

