-- ==== Sys2Proof/Laws/State.lean ====
section
/-! SUPPORT. One lemma per field for each named update of the state, true by rfl, so that no later proof unfolds one. -/

namespace Sys2Proof.Machine

section retireFields
variable (s : State)

@[simp] theorem retire_mode : (retire s).mode = s.mode := rfl
@[simp] theorem retire_errCode : (retire s).errCode = s.errCode := rfl
@[simp] theorem retire_fsat : (retire s).fsat = s.fsat := rfl
@[simp] theorem retire_osat : (retire s).osat = s.osat := rfl
@[simp] theorem retire_nans : (retire s).nans = s.nans := rfl
@[simp] theorem retire_irqEn : (retire s).irqEn = s.irqEn := rfl
@[simp] theorem retire_cnt : (retire s).cnt = s.cnt := rfl
@[simp] theorem retire_cfg : (retire s).cfg = s.cfg := rfl
@[simp] theorem retire_tapBank : (retire s).tapBank = s.tapBank := rfl
@[simp] theorem retire_tapIndex : (retire s).tapIndex = s.tapIndex := rfl
@[simp] theorem retire_taps : (retire s).taps = s.taps := rfl
@[simp] theorem retire_dp : (retire s).dp = s.dp := rfl
@[simp] theorem retire_ch : (retire s).ch = s.ch := rfl
@[simp] theorem retire_pending : (retire s).pending = s.pending.tail := rfl
@[simp] theorem retire_ret : (retire s).ret = s.ret := rfl
@[simp] theorem retire_choice : (retire s).choice = s.choice := rfl

end retireFields

section advanceIndexFields
variable (s : State)

@[simp] theorem advanceIndex_mode : (advanceIndex s).mode = s.mode := rfl
@[simp] theorem advanceIndex_errCode : (advanceIndex s).errCode = s.errCode := rfl
@[simp] theorem advanceIndex_fsat : (advanceIndex s).fsat = s.fsat := rfl
@[simp] theorem advanceIndex_osat : (advanceIndex s).osat = s.osat := rfl
@[simp] theorem advanceIndex_nans : (advanceIndex s).nans = s.nans := rfl
@[simp] theorem advanceIndex_irqEn : (advanceIndex s).irqEn = s.irqEn := rfl
@[simp] theorem advanceIndex_cnt : (advanceIndex s).cnt = s.cnt := rfl
@[simp] theorem advanceIndex_cfg : (advanceIndex s).cfg = s.cfg := rfl
@[simp] theorem advanceIndex_tapBank : (advanceIndex s).tapBank = s.tapBank := rfl
@[simp] theorem advanceIndex_tapIndex : (advanceIndex s).tapIndex = s.tapIndex + 1#16 := rfl
@[simp] theorem advanceIndex_taps : (advanceIndex s).taps = s.taps := rfl
@[simp] theorem advanceIndex_dp : (advanceIndex s).dp = s.dp := rfl
@[simp] theorem advanceIndex_ch : (advanceIndex s).ch = s.ch := rfl
@[simp] theorem advanceIndex_pending : (advanceIndex s).pending = s.pending := rfl
@[simp] theorem advanceIndex_ret : (advanceIndex s).ret = s.ret := rfl
@[simp] theorem advanceIndex_choice : (advanceIndex s).choice = s.choice := rfl

end advanceIndexFields

section raiseConfigErrorFields
variable (s : State) (c : BitVec 4)

@[simp] theorem raiseConfigError_mode : (raiseConfigError c s).mode = .error := rfl
@[simp] theorem raiseConfigError_errCode : (raiseConfigError c s).errCode = c := rfl
@[simp] theorem raiseConfigError_fsat : (raiseConfigError c s).fsat = s.fsat := rfl
@[simp] theorem raiseConfigError_osat : (raiseConfigError c s).osat = s.osat := rfl
@[simp] theorem raiseConfigError_nans : (raiseConfigError c s).nans = s.nans := rfl
@[simp] theorem raiseConfigError_irqEn : (raiseConfigError c s).irqEn = s.irqEn := rfl
@[simp] theorem raiseConfigError_cnt : (raiseConfigError c s).cnt = s.cnt := rfl
@[simp] theorem raiseConfigError_cfg : (raiseConfigError c s).cfg = s.cfg := rfl
@[simp] theorem raiseConfigError_tapBank : (raiseConfigError c s).tapBank = s.tapBank := rfl
@[simp] theorem raiseConfigError_tapIndex : (raiseConfigError c s).tapIndex = s.tapIndex := rfl
@[simp] theorem raiseConfigError_taps : (raiseConfigError c s).taps = s.taps := rfl
@[simp] theorem raiseConfigError_dp : (raiseConfigError c s).dp = s.dp := rfl
@[simp] theorem raiseConfigError_ch : (raiseConfigError c s).ch = s.ch := rfl
@[simp] theorem raiseConfigError_pending : (raiseConfigError c s).pending = s.pending := rfl
@[simp] theorem raiseConfigError_ret : (raiseConfigError c s).ret = s.ret := rfl
@[simp] theorem raiseConfigError_choice : (raiseConfigError c s).choice = s.choice := rfl

end raiseConfigErrorFields

section raiseFlagsFields
variable (s : State) (a b c : Bool)

@[simp] theorem raiseFlags_mode : (raiseFlags s a b c).mode = s.mode := rfl
@[simp] theorem raiseFlags_errCode : (raiseFlags s a b c).errCode = s.errCode := rfl
@[simp] theorem raiseFlags_fsat : (raiseFlags s a b c).fsat = (s.fsat || a) := rfl
@[simp] theorem raiseFlags_osat : (raiseFlags s a b c).osat = (s.osat || b) := rfl
@[simp] theorem raiseFlags_nans : (raiseFlags s a b c).nans = (s.nans || c) := rfl
@[simp] theorem raiseFlags_irqEn : (raiseFlags s a b c).irqEn = s.irqEn := rfl
@[simp] theorem raiseFlags_cnt : (raiseFlags s a b c).cnt = s.cnt := rfl
@[simp] theorem raiseFlags_cfg : (raiseFlags s a b c).cfg = s.cfg := rfl
@[simp] theorem raiseFlags_tapBank : (raiseFlags s a b c).tapBank = s.tapBank := rfl
@[simp] theorem raiseFlags_tapIndex : (raiseFlags s a b c).tapIndex = s.tapIndex := rfl
@[simp] theorem raiseFlags_taps : (raiseFlags s a b c).taps = s.taps := rfl
@[simp] theorem raiseFlags_dp : (raiseFlags s a b c).dp = s.dp := rfl
@[simp] theorem raiseFlags_ch : (raiseFlags s a b c).ch = s.ch := rfl
@[simp] theorem raiseFlags_pending : (raiseFlags s a b c).pending = s.pending := rfl
@[simp] theorem raiseFlags_ret : (raiseFlags s a b c).ret = s.ret := rfl
@[simp] theorem raiseFlags_choice : (raiseFlags s a b c).choice = s.choice := rfl

end raiseFlagsFields

section clearFlagsFields
variable (s : State) (v : Word)

@[simp] theorem clearFlags_mode : (clearFlags s v).mode = s.mode := rfl
@[simp] theorem clearFlags_errCode : (clearFlags s v).errCode = s.errCode := rfl
@[simp] theorem clearFlags_fsat : (clearFlags s v).fsat = (s.fsat && !v.getLsbD 8) := rfl
@[simp] theorem clearFlags_osat : (clearFlags s v).osat = (s.osat && !v.getLsbD 9) := rfl
@[simp] theorem clearFlags_nans : (clearFlags s v).nans = (s.nans && !v.getLsbD 10) := rfl
@[simp] theorem clearFlags_irqEn : (clearFlags s v).irqEn = s.irqEn := rfl
@[simp] theorem clearFlags_cnt : (clearFlags s v).cnt = s.cnt := rfl
@[simp] theorem clearFlags_cfg : (clearFlags s v).cfg = s.cfg := rfl
@[simp] theorem clearFlags_tapBank : (clearFlags s v).tapBank = s.tapBank := rfl
@[simp] theorem clearFlags_tapIndex : (clearFlags s v).tapIndex = s.tapIndex := rfl
@[simp] theorem clearFlags_taps : (clearFlags s v).taps = s.taps := rfl
@[simp] theorem clearFlags_dp : (clearFlags s v).dp = s.dp := rfl
@[simp] theorem clearFlags_ch : (clearFlags s v).ch = s.ch := rfl
@[simp] theorem clearFlags_pending : (clearFlags s v).pending = s.pending := rfl
@[simp] theorem clearFlags_ret : (clearFlags s v).ret = s.ret := rfl
@[simp] theorem clearFlags_choice : (clearFlags s v).choice = s.choice := rfl

end clearFlagsFields

section softResetFields
variable (s : State)

@[simp] theorem softReset_mode : (softReset s).mode = .idle := rfl
@[simp] theorem softReset_errCode : (softReset s).errCode = 0#4 := rfl
@[simp] theorem softReset_fsat : (softReset s).fsat = false := rfl
@[simp] theorem softReset_osat : (softReset s).osat = false := rfl
@[simp] theorem softReset_nans : (softReset s).nans = false := rfl
@[simp] theorem softReset_irqEn : (softReset s).irqEn = s.irqEn := rfl
@[simp] theorem softReset_cnt : (softReset s).cnt = ⟨0#32, 0#32, 0#32, 0#32⟩ := rfl
@[simp] theorem softReset_cfg : (softReset s).cfg = s.cfg := rfl
@[simp] theorem softReset_tapBank : (softReset s).tapBank = s.tapBank := rfl
@[simp] theorem softReset_tapIndex : (softReset s).tapIndex = s.tapIndex := rfl
@[simp] theorem softReset_taps : (softReset s).taps = s.taps := rfl
@[simp] theorem softReset_dp : (softReset s).dp = Datapath.cleared := rfl
@[simp] theorem softReset_ch : (softReset s).ch = Channels.empty := rfl
@[simp] theorem softReset_pending : (softReset s).pending = s.pending := rfl
@[simp] theorem softReset_ret : (softReset s).ret = s.ret := rfl
@[simp] theorem softReset_choice : (softReset s).choice = s.choice := rfl

end softResetFields

section startRunFields
variable (s : State)

@[simp] theorem startRun_mode : (startRun s).mode = .run := rfl
@[simp] theorem startRun_errCode : (startRun s).errCode = 0#4 := rfl
@[simp] theorem startRun_fsat : (startRun s).fsat = false := rfl
@[simp] theorem startRun_osat : (startRun s).osat = false := rfl
@[simp] theorem startRun_nans : (startRun s).nans = false := rfl
@[simp] theorem startRun_irqEn : (startRun s).irqEn = s.irqEn := rfl
@[simp] theorem startRun_cnt : (startRun s).cnt = ⟨0#32, 0#32, 0#32, 0#32⟩ := rfl
@[simp] theorem startRun_cfg : (startRun s).cfg = s.cfg := rfl
@[simp] theorem startRun_tapBank : (startRun s).tapBank = s.tapBank := rfl
@[simp] theorem startRun_tapIndex : (startRun s).tapIndex = s.tapIndex := rfl
@[simp] theorem startRun_taps : (startRun s).taps = s.taps := rfl
@[simp] theorem startRun_dp : (startRun s).dp = startDatapath s.cfg := rfl
@[simp] theorem startRun_ch : (startRun s).ch = Channels.empty := rfl
@[simp] theorem startRun_pending : (startRun s).pending = s.pending := rfl
@[simp] theorem startRun_ret : (startRun s).ret = s.ret := rfl
@[simp] theorem startRun_choice : (startRun s).choice = s.choice := rfl

end startRunFields

section hardResetFields
variable (s : State)

@[simp] theorem hardReset_mode : (hardReset s).mode = State.reset.mode := rfl
@[simp] theorem hardReset_errCode : (hardReset s).errCode = State.reset.errCode := rfl
@[simp] theorem hardReset_fsat : (hardReset s).fsat = State.reset.fsat := rfl
@[simp] theorem hardReset_osat : (hardReset s).osat = State.reset.osat := rfl
@[simp] theorem hardReset_nans : (hardReset s).nans = State.reset.nans := rfl
@[simp] theorem hardReset_irqEn : (hardReset s).irqEn = State.reset.irqEn := rfl
@[simp] theorem hardReset_cnt : (hardReset s).cnt = State.reset.cnt := rfl
@[simp] theorem hardReset_cfg : (hardReset s).cfg = State.reset.cfg := rfl
@[simp] theorem hardReset_tapBank : (hardReset s).tapBank = State.reset.tapBank := rfl
@[simp] theorem hardReset_tapIndex : (hardReset s).tapIndex = State.reset.tapIndex := rfl
@[simp] theorem hardReset_taps : (hardReset s).taps = State.reset.taps := rfl
@[simp] theorem hardReset_dp : (hardReset s).dp = State.reset.dp := rfl
@[simp] theorem hardReset_ch : (hardReset s).ch = State.reset.ch := rfl
@[simp] theorem hardReset_pending : (hardReset s).pending = s.pending := rfl
@[simp] theorem hardReset_ret : (hardReset s).ret = s.ret := rfl
@[simp] theorem hardReset_choice : (hardReset s).choice = s.choice := rfl

end hardResetFields

end Sys2Proof.Machine
end

