-- ==== Sys2Proof/Laws/Ops.lean ====
section
/-! SUPPORT. For each shared operation that answers an outcome, everything it can do, once; and what completing a
transaction leaves alone. -/

namespace Sys2Proof.Machine

variable {s t : State}

theorem complete_eq_next (s : State) : complete s = .next (retire s) := rfl

theorem complete_next (h : complete s = .next t) : t = retire s := by
  cases h
  rfl

theorem answer_next {r : Returned} (h : answer r s = .next t) : t = retire { s with ret := some r } := by
  cases h
  rfl

/-- A register read changes nothing but what was returned and what is scheduled. -/
theorem readReg_next {v : Word} (h : readReg v s = .next t) :
    t = { s with ret := some (.bus v), pending := s.pending.tail } := by
  cases h
  rfl

theorem readHalf_next {v : Half} (h : readHalf v s = .next t) :
    t = { s with ret := some (.bus (v.setWidth 32)), pending := s.pending.tail } := by
  cases h
  rfl

theorem writeIgnored_next (h : writeIgnored s = .next t) : t = { s with pending := s.pending.tail } := by
  cases h
  rfl

theorem writeCfg_run {c : CfgRegs} (hr : s.mode = .run) : writeCfg c s = complete s := by
  simp [writeCfg, hr]

theorem writeCfg_open {c : CfgRegs} (hr : s.mode ≠ .run) : writeCfg c s = complete { s with cfg := c } := by
  simp [writeCfg, hr]

/-- A configuration write answers one of two states. -/
theorem writeCfg_next {c : CfgRegs} (h : writeCfg c s = .next t) :
    (s.mode = .run ∧ t = retire s) ∨ (s.mode ≠ .run ∧ t = retire { s with cfg := c }) := by
  by_cases hr : s.mode = .run
  · rw [writeCfg_run hr] at h
    exact .inl ⟨hr, complete_next h⟩
  · rw [writeCfg_open hr] at h
    exact .inr ⟨hr, complete_next h⟩

/-- START does one of two things (R143, R332). -/
theorem start_cases (s : State) :
    (checkConfig Config.ntapsMax s.cfg ≠ 0#4 ∧
      start s = raiseConfigError (checkConfig Config.ntapsMax s.cfg) s) ∨
    (checkConfig Config.ntapsMax s.cfg = 0#4 ∧ start s = startRun s) := by
  by_cases h : checkConfig Config.ntapsMax s.cfg = 0#4
  · exact .inr ⟨h, by simp [start, h]⟩
  · exact .inl ⟨h, by simp [start, h]⟩

/-- A command is SOFT_RESET, START outside RUN, or nothing (R142). -/
theorem command_cases (v : Word) (s : State) :
    (v.getLsbD 1 = true ∧ command v s = softReset s) ∨
    (v.getLsbD 1 = false ∧ v.getLsbD 0 = true ∧ s.mode ≠ .run ∧ command v s = start s) ∨
    (v.getLsbD 1 = false ∧ (v.getLsbD 0 = true → s.mode = .run) ∧ command v s = s) := by
  unfold command
  cases h1 : v.getLsbD 1 <;> cases h0 : v.getLsbD 0 <;> by_cases hr : s.mode = .run <;> simp [hr]

end Sys2Proof.Machine
end

