-- ==== Sys2Proof/Laws/Schedule.lean ====
section
/-! SUPPORT. What a firing changes and what it leaves alone, when one is enabled, and everything a waiting step can do. -/

namespace Sys2Proof.Machine

variable {s t : State} {u : UnitId}

/-- There is always room in an empty channel (R6: `FIFO_DEPTH` is at least 1). -/
@[simp] theorem hasSpace_zero : hasSpace 0 = true := by simp [hasSpace, Config.fifoDepth]

/-- `NTAPS_MAX` is at least 1 (R6). -/
theorem ntapsMax_pos : 0 < Config.ntapsMax := by simp [Config.ntapsMax]

/-- `NTAPS_MAX` is at most 65535 (R6). -/
theorem ntapsMax_le : Config.ntapsMax ≤ 65535 := by
  have := Nat.mod_lt Config.ntapsRaw (show 0 < 65535 by decide)
  unfold Config.ntapsMax
  omega

theorem enabled_iff :
    enabled u s = true ↔ s.mode = .run ∧ 0 < inLength u s.ch ∧ outLength u s.ch < Config.fifoDepth := by
  simp [enabled, hasSpace, and_assoc]

/-- Nothing is enabled outside RUN (R78). -/
theorem enabled_of_not_run (h : s.mode ≠ .run) : enabled u s = false := by simp [enabled, h]

theorem mem_enabledUnits : u ∈ enabledUnits s ↔ enabled u s = true := by
  simp only [enabledUnits, List.mem_filter, and_iff_right_iff_imp]
  intro _
  cases u <;> decide

theorem enabledUnits_eq_nil : enabledUnits s = [] ↔ ∀ u, enabled u s = false := by
  simp only [List.eq_nil_iff_forall_not_mem, mem_enabledUnits, Bool.not_eq_true]

/-- The core's own move: no step where nothing is enabled, else one enabled firing. -/
theorem coreMove_cases (s : State) :
    ((∀ u, enabled u s = false) ∧ coreMove s = .fault .noStep) ∨
    (∃ u, enabled u s = true ∧ coreMove s = .next (fireUnit u { s with choice := s.choice + 1 })) := by
  unfold coreMove
  cases h : enabledUnits s with
  | nil => exact .inl ⟨enabledUnits_eq_nil.1 h, rfl⟩
  | cons u us =>
    refine .inr ⟨_, ?_, rfl⟩
    rw [← mem_enabledUnits, h, List.getD_eq_getElem _ _ (Nat.mod_lt _ (by simp))]
    exact List.getElem_mem _

theorem coreMove_next (h : coreMove s = .next t) :
    ∃ u, enabled u s = true ∧ t = fireUnit u { s with choice := s.choice + 1 } := by
  rcases coreMove_cases s with ⟨_, hc⟩ | ⟨u, hu, hc⟩
  · rw [hc] at h
    cases h
  · rw [hc] at h
    cases h
    exact ⟨u, hu, rfl⟩

theorem scheduledFire_enabled {fired : State} (h : enabled u s = true) :
    scheduledFire u fired s = .next (retire fired) := by
  simp [scheduledFire, h, complete]

/-- A scheduled firing happens, or its unit waits. -/
theorem scheduledFire_next {fired : State} (h : scheduledFire u fired s = .next t) :
    (enabled u s = true ∧ t = retire fired) ∨
    (enabled u s = false ∧ ∃ w, enabled w s = true ∧ t = fireUnit w { s with choice := s.choice + 1 }) := by
  cases he : enabled u s with
  | true =>
    rw [scheduledFire_enabled he] at h
    cases h
    exact .inl ⟨rfl, rfl⟩
  | false =>
    rw [scheduledFire, he] at h
    exact .inr ⟨rfl, coreMove_next h⟩

end Sys2Proof.Machine
end

