-- ==== Sys2Proof/Laws/Firing.lean ====
section
/-! SUPPORT. The frame of the firings: a firing changes channels, its unit's datapath state, a counter and (RX) the
sticky flags, and nothing else (10_state.md R31, R66). -/

namespace Sys2Proof.Machine

variable (s : State) (u : UnitId)

@[simp] theorem fireMix0_mode : (fireMix0 s).mode = s.mode := by
  cases h : s.ch.iq <;> simp [fireMix0, h]
@[simp] theorem fireFir0_mode : (fireFir0 s).mode = s.mode := by
  cases h : s.ch.mx0 <;> simp [fireFir0, h]
@[simp] theorem fireQd_mode : (fireQd s).mode = s.mode := by
  cases h : s.ch.f0 <;> simp [fireQd, h]
@[simp] theorem fireFir1_mode : (fireFir1 s).mode = s.mode := by
  cases h : s.ch.qd <;> simp [fireFir1, h]
@[simp] theorem fireDe_mode : (fireDe s).mode = s.mode := by
  cases h : s.ch.f1 <;> simp [fireDe, h]
@[simp] theorem fireMix1_mode : (fireMix1 s).mode = s.mode := by
  cases h : s.ch.ain <;> simp [fireMix1, h]
@[simp] theorem fireFir2_mode : (fireFir2 s).mode = s.mode := by
  cases h : s.ch.mx1 <;> simp [fireFir2, h]
@[simp] theorem fireRx_mode : (fireRx s).mode = s.mode := by
  cases h : s.ch.f2 <;> simp [fireRx, h]
@[simp] theorem fireDd_mode : (fireDd s).mode = s.mode := by
  cases h : s.ch.rx <;> simp [fireDd, h]
@[simp] theorem fireUnit_mode : (fireUnit u s).mode = s.mode := by cases u <;> simp [fireUnit]

@[simp] theorem fireMix0_errCode : (fireMix0 s).errCode = s.errCode := by
  cases h : s.ch.iq <;> simp [fireMix0, h]
@[simp] theorem fireFir0_errCode : (fireFir0 s).errCode = s.errCode := by
  cases h : s.ch.mx0 <;> simp [fireFir0, h]
@[simp] theorem fireQd_errCode : (fireQd s).errCode = s.errCode := by
  cases h : s.ch.f0 <;> simp [fireQd, h]
@[simp] theorem fireFir1_errCode : (fireFir1 s).errCode = s.errCode := by
  cases h : s.ch.qd <;> simp [fireFir1, h]
@[simp] theorem fireDe_errCode : (fireDe s).errCode = s.errCode := by
  cases h : s.ch.f1 <;> simp [fireDe, h]
@[simp] theorem fireMix1_errCode : (fireMix1 s).errCode = s.errCode := by
  cases h : s.ch.ain <;> simp [fireMix1, h]
@[simp] theorem fireFir2_errCode : (fireFir2 s).errCode = s.errCode := by
  cases h : s.ch.mx1 <;> simp [fireFir2, h]
@[simp] theorem fireRx_errCode : (fireRx s).errCode = s.errCode := by
  cases h : s.ch.f2 <;> simp [fireRx, h]
@[simp] theorem fireDd_errCode : (fireDd s).errCode = s.errCode := by
  cases h : s.ch.rx <;> simp [fireDd, h]
@[simp] theorem fireUnit_errCode : (fireUnit u s).errCode = s.errCode := by cases u <;> simp [fireUnit]

@[simp] theorem fireMix0_irqEn : (fireMix0 s).irqEn = s.irqEn := by
  cases h : s.ch.iq <;> simp [fireMix0, h]
@[simp] theorem fireFir0_irqEn : (fireFir0 s).irqEn = s.irqEn := by
  cases h : s.ch.mx0 <;> simp [fireFir0, h]
@[simp] theorem fireQd_irqEn : (fireQd s).irqEn = s.irqEn := by
  cases h : s.ch.f0 <;> simp [fireQd, h]
@[simp] theorem fireFir1_irqEn : (fireFir1 s).irqEn = s.irqEn := by
  cases h : s.ch.qd <;> simp [fireFir1, h]
@[simp] theorem fireDe_irqEn : (fireDe s).irqEn = s.irqEn := by
  cases h : s.ch.f1 <;> simp [fireDe, h]
@[simp] theorem fireMix1_irqEn : (fireMix1 s).irqEn = s.irqEn := by
  cases h : s.ch.ain <;> simp [fireMix1, h]
@[simp] theorem fireFir2_irqEn : (fireFir2 s).irqEn = s.irqEn := by
  cases h : s.ch.mx1 <;> simp [fireFir2, h]
@[simp] theorem fireRx_irqEn : (fireRx s).irqEn = s.irqEn := by
  cases h : s.ch.f2 <;> simp [fireRx, h]
@[simp] theorem fireDd_irqEn : (fireDd s).irqEn = s.irqEn := by
  cases h : s.ch.rx <;> simp [fireDd, h]
@[simp] theorem fireUnit_irqEn : (fireUnit u s).irqEn = s.irqEn := by cases u <;> simp [fireUnit]

@[simp] theorem fireMix0_cfg : (fireMix0 s).cfg = s.cfg := by
  cases h : s.ch.iq <;> simp [fireMix0, h]
@[simp] theorem fireFir0_cfg : (fireFir0 s).cfg = s.cfg := by
  cases h : s.ch.mx0 <;> simp [fireFir0, h]
@[simp] theorem fireQd_cfg : (fireQd s).cfg = s.cfg := by
  cases h : s.ch.f0 <;> simp [fireQd, h]
@[simp] theorem fireFir1_cfg : (fireFir1 s).cfg = s.cfg := by
  cases h : s.ch.qd <;> simp [fireFir1, h]
@[simp] theorem fireDe_cfg : (fireDe s).cfg = s.cfg := by
  cases h : s.ch.f1 <;> simp [fireDe, h]
@[simp] theorem fireMix1_cfg : (fireMix1 s).cfg = s.cfg := by
  cases h : s.ch.ain <;> simp [fireMix1, h]
@[simp] theorem fireFir2_cfg : (fireFir2 s).cfg = s.cfg := by
  cases h : s.ch.mx1 <;> simp [fireFir2, h]
@[simp] theorem fireRx_cfg : (fireRx s).cfg = s.cfg := by
  cases h : s.ch.f2 <;> simp [fireRx, h]
@[simp] theorem fireDd_cfg : (fireDd s).cfg = s.cfg := by
  cases h : s.ch.rx <;> simp [fireDd, h]
@[simp] theorem fireUnit_cfg : (fireUnit u s).cfg = s.cfg := by cases u <;> simp [fireUnit]

@[simp] theorem fireMix0_tapBank : (fireMix0 s).tapBank = s.tapBank := by
  cases h : s.ch.iq <;> simp [fireMix0, h]
@[simp] theorem fireFir0_tapBank : (fireFir0 s).tapBank = s.tapBank := by
  cases h : s.ch.mx0 <;> simp [fireFir0, h]
@[simp] theorem fireQd_tapBank : (fireQd s).tapBank = s.tapBank := by
  cases h : s.ch.f0 <;> simp [fireQd, h]
@[simp] theorem fireFir1_tapBank : (fireFir1 s).tapBank = s.tapBank := by
  cases h : s.ch.qd <;> simp [fireFir1, h]
@[simp] theorem fireDe_tapBank : (fireDe s).tapBank = s.tapBank := by
  cases h : s.ch.f1 <;> simp [fireDe, h]
@[simp] theorem fireMix1_tapBank : (fireMix1 s).tapBank = s.tapBank := by
  cases h : s.ch.ain <;> simp [fireMix1, h]
@[simp] theorem fireFir2_tapBank : (fireFir2 s).tapBank = s.tapBank := by
  cases h : s.ch.mx1 <;> simp [fireFir2, h]
@[simp] theorem fireRx_tapBank : (fireRx s).tapBank = s.tapBank := by
  cases h : s.ch.f2 <;> simp [fireRx, h]
@[simp] theorem fireDd_tapBank : (fireDd s).tapBank = s.tapBank := by
  cases h : s.ch.rx <;> simp [fireDd, h]
@[simp] theorem fireUnit_tapBank : (fireUnit u s).tapBank = s.tapBank := by cases u <;> simp [fireUnit]

@[simp] theorem fireMix0_tapIndex : (fireMix0 s).tapIndex = s.tapIndex := by
  cases h : s.ch.iq <;> simp [fireMix0, h]
@[simp] theorem fireFir0_tapIndex : (fireFir0 s).tapIndex = s.tapIndex := by
  cases h : s.ch.mx0 <;> simp [fireFir0, h]
@[simp] theorem fireQd_tapIndex : (fireQd s).tapIndex = s.tapIndex := by
  cases h : s.ch.f0 <;> simp [fireQd, h]
@[simp] theorem fireFir1_tapIndex : (fireFir1 s).tapIndex = s.tapIndex := by
  cases h : s.ch.qd <;> simp [fireFir1, h]
@[simp] theorem fireDe_tapIndex : (fireDe s).tapIndex = s.tapIndex := by
  cases h : s.ch.f1 <;> simp [fireDe, h]
@[simp] theorem fireMix1_tapIndex : (fireMix1 s).tapIndex = s.tapIndex := by
  cases h : s.ch.ain <;> simp [fireMix1, h]
@[simp] theorem fireFir2_tapIndex : (fireFir2 s).tapIndex = s.tapIndex := by
  cases h : s.ch.mx1 <;> simp [fireFir2, h]
@[simp] theorem fireRx_tapIndex : (fireRx s).tapIndex = s.tapIndex := by
  cases h : s.ch.f2 <;> simp [fireRx, h]
@[simp] theorem fireDd_tapIndex : (fireDd s).tapIndex = s.tapIndex := by
  cases h : s.ch.rx <;> simp [fireDd, h]
@[simp] theorem fireUnit_tapIndex : (fireUnit u s).tapIndex = s.tapIndex := by cases u <;> simp [fireUnit]

@[simp] theorem fireMix0_taps : (fireMix0 s).taps = s.taps := by
  cases h : s.ch.iq <;> simp [fireMix0, h]
@[simp] theorem fireFir0_taps : (fireFir0 s).taps = s.taps := by
  cases h : s.ch.mx0 <;> simp [fireFir0, h]
@[simp] theorem fireQd_taps : (fireQd s).taps = s.taps := by
  cases h : s.ch.f0 <;> simp [fireQd, h]
@[simp] theorem fireFir1_taps : (fireFir1 s).taps = s.taps := by
  cases h : s.ch.qd <;> simp [fireFir1, h]
@[simp] theorem fireDe_taps : (fireDe s).taps = s.taps := by
  cases h : s.ch.f1 <;> simp [fireDe, h]
@[simp] theorem fireMix1_taps : (fireMix1 s).taps = s.taps := by
  cases h : s.ch.ain <;> simp [fireMix1, h]
@[simp] theorem fireFir2_taps : (fireFir2 s).taps = s.taps := by
  cases h : s.ch.mx1 <;> simp [fireFir2, h]
@[simp] theorem fireRx_taps : (fireRx s).taps = s.taps := by
  cases h : s.ch.f2 <;> simp [fireRx, h]
@[simp] theorem fireDd_taps : (fireDd s).taps = s.taps := by
  cases h : s.ch.rx <;> simp [fireDd, h]
@[simp] theorem fireUnit_taps : (fireUnit u s).taps = s.taps := by cases u <;> simp [fireUnit]

@[simp] theorem fireMix0_pending : (fireMix0 s).pending = s.pending := by
  cases h : s.ch.iq <;> simp [fireMix0, h]
@[simp] theorem fireFir0_pending : (fireFir0 s).pending = s.pending := by
  cases h : s.ch.mx0 <;> simp [fireFir0, h]
@[simp] theorem fireQd_pending : (fireQd s).pending = s.pending := by
  cases h : s.ch.f0 <;> simp [fireQd, h]
@[simp] theorem fireFir1_pending : (fireFir1 s).pending = s.pending := by
  cases h : s.ch.qd <;> simp [fireFir1, h]
@[simp] theorem fireDe_pending : (fireDe s).pending = s.pending := by
  cases h : s.ch.f1 <;> simp [fireDe, h]
@[simp] theorem fireMix1_pending : (fireMix1 s).pending = s.pending := by
  cases h : s.ch.ain <;> simp [fireMix1, h]
@[simp] theorem fireFir2_pending : (fireFir2 s).pending = s.pending := by
  cases h : s.ch.mx1 <;> simp [fireFir2, h]
@[simp] theorem fireRx_pending : (fireRx s).pending = s.pending := by
  cases h : s.ch.f2 <;> simp [fireRx, h]
@[simp] theorem fireDd_pending : (fireDd s).pending = s.pending := by
  cases h : s.ch.rx <;> simp [fireDd, h]
@[simp] theorem fireUnit_pending : (fireUnit u s).pending = s.pending := by cases u <;> simp [fireUnit]

@[simp] theorem fireMix0_ret : (fireMix0 s).ret = s.ret := by
  cases h : s.ch.iq <;> simp [fireMix0, h]
@[simp] theorem fireFir0_ret : (fireFir0 s).ret = s.ret := by
  cases h : s.ch.mx0 <;> simp [fireFir0, h]
@[simp] theorem fireQd_ret : (fireQd s).ret = s.ret := by
  cases h : s.ch.f0 <;> simp [fireQd, h]
@[simp] theorem fireFir1_ret : (fireFir1 s).ret = s.ret := by
  cases h : s.ch.qd <;> simp [fireFir1, h]
@[simp] theorem fireDe_ret : (fireDe s).ret = s.ret := by
  cases h : s.ch.f1 <;> simp [fireDe, h]
@[simp] theorem fireMix1_ret : (fireMix1 s).ret = s.ret := by
  cases h : s.ch.ain <;> simp [fireMix1, h]
@[simp] theorem fireFir2_ret : (fireFir2 s).ret = s.ret := by
  cases h : s.ch.mx1 <;> simp [fireFir2, h]
@[simp] theorem fireRx_ret : (fireRx s).ret = s.ret := by
  cases h : s.ch.f2 <;> simp [fireRx, h]
@[simp] theorem fireDd_ret : (fireDd s).ret = s.ret := by
  cases h : s.ch.rx <;> simp [fireDd, h]
@[simp] theorem fireUnit_ret : (fireUnit u s).ret = s.ret := by cases u <;> simp [fireUnit]

@[simp] theorem fireMix0_choice : (fireMix0 s).choice = s.choice := by
  cases h : s.ch.iq <;> simp [fireMix0, h]
@[simp] theorem fireFir0_choice : (fireFir0 s).choice = s.choice := by
  cases h : s.ch.mx0 <;> simp [fireFir0, h]
@[simp] theorem fireQd_choice : (fireQd s).choice = s.choice := by
  cases h : s.ch.f0 <;> simp [fireQd, h]
@[simp] theorem fireFir1_choice : (fireFir1 s).choice = s.choice := by
  cases h : s.ch.qd <;> simp [fireFir1, h]
@[simp] theorem fireDe_choice : (fireDe s).choice = s.choice := by
  cases h : s.ch.f1 <;> simp [fireDe, h]
@[simp] theorem fireMix1_choice : (fireMix1 s).choice = s.choice := by
  cases h : s.ch.ain <;> simp [fireMix1, h]
@[simp] theorem fireFir2_choice : (fireFir2 s).choice = s.choice := by
  cases h : s.ch.mx1 <;> simp [fireFir2, h]
@[simp] theorem fireRx_choice : (fireRx s).choice = s.choice := by
  cases h : s.ch.f2 <;> simp [fireRx, h]
@[simp] theorem fireDd_choice : (fireDd s).choice = s.choice := by
  cases h : s.ch.rx <;> simp [fireDd, h]
@[simp] theorem fireUnit_choice : (fireUnit u s).choice = s.choice := by cases u <;> simp [fireUnit]

@[simp] theorem fireMix0_fsat : (fireMix0 s).fsat = s.fsat := by
  cases h : s.ch.iq <;> simp [fireMix0, h]
@[simp] theorem fireFir0_fsat : (fireFir0 s).fsat = s.fsat := by
  cases h : s.ch.mx0 <;> simp [fireFir0, h]
@[simp] theorem fireQd_fsat : (fireQd s).fsat = s.fsat := by
  cases h : s.ch.f0 <;> simp [fireQd, h]
@[simp] theorem fireFir1_fsat : (fireFir1 s).fsat = s.fsat := by
  cases h : s.ch.qd <;> simp [fireFir1, h]
@[simp] theorem fireDe_fsat : (fireDe s).fsat = s.fsat := by
  cases h : s.ch.f1 <;> simp [fireDe, h]
@[simp] theorem fireMix1_fsat : (fireMix1 s).fsat = s.fsat := by
  cases h : s.ch.ain <;> simp [fireMix1, h]
@[simp] theorem fireFir2_fsat : (fireFir2 s).fsat = s.fsat := by
  cases h : s.ch.mx1 <;> simp [fireFir2, h]
@[simp] theorem fireDd_fsat : (fireDd s).fsat = s.fsat := by
  cases h : s.ch.rx <;> simp [fireDd, h]
/-- No firing clears FSAT (R14). -/
theorem fireUnit_fsat (h : s.fsat = true) : (fireUnit u s).fsat = true := by
  cases u <;> simp [fireUnit, h]
  cases hc : s.ch.f2 <;> simp [fireRx, hc, h]

@[simp] theorem fireMix0_osat : (fireMix0 s).osat = s.osat := by
  cases h : s.ch.iq <;> simp [fireMix0, h]
@[simp] theorem fireFir0_osat : (fireFir0 s).osat = s.osat := by
  cases h : s.ch.mx0 <;> simp [fireFir0, h]
@[simp] theorem fireQd_osat : (fireQd s).osat = s.osat := by
  cases h : s.ch.f0 <;> simp [fireQd, h]
@[simp] theorem fireFir1_osat : (fireFir1 s).osat = s.osat := by
  cases h : s.ch.qd <;> simp [fireFir1, h]
@[simp] theorem fireDe_osat : (fireDe s).osat = s.osat := by
  cases h : s.ch.f1 <;> simp [fireDe, h]
@[simp] theorem fireMix1_osat : (fireMix1 s).osat = s.osat := by
  cases h : s.ch.ain <;> simp [fireMix1, h]
@[simp] theorem fireFir2_osat : (fireFir2 s).osat = s.osat := by
  cases h : s.ch.mx1 <;> simp [fireFir2, h]
@[simp] theorem fireDd_osat : (fireDd s).osat = s.osat := by
  cases h : s.ch.rx <;> simp [fireDd, h]
/-- No firing clears OSAT (R14). -/
theorem fireUnit_osat (h : s.osat = true) : (fireUnit u s).osat = true := by
  cases u <;> simp [fireUnit, h]
  cases hc : s.ch.f2 <;> simp [fireRx, hc, h]

@[simp] theorem fireMix0_nans : (fireMix0 s).nans = s.nans := by
  cases h : s.ch.iq <;> simp [fireMix0, h]
@[simp] theorem fireFir0_nans : (fireFir0 s).nans = s.nans := by
  cases h : s.ch.mx0 <;> simp [fireFir0, h]
@[simp] theorem fireQd_nans : (fireQd s).nans = s.nans := by
  cases h : s.ch.f0 <;> simp [fireQd, h]
@[simp] theorem fireFir1_nans : (fireFir1 s).nans = s.nans := by
  cases h : s.ch.qd <;> simp [fireFir1, h]
@[simp] theorem fireDe_nans : (fireDe s).nans = s.nans := by
  cases h : s.ch.f1 <;> simp [fireDe, h]
@[simp] theorem fireMix1_nans : (fireMix1 s).nans = s.nans := by
  cases h : s.ch.ain <;> simp [fireMix1, h]
@[simp] theorem fireFir2_nans : (fireFir2 s).nans = s.nans := by
  cases h : s.ch.mx1 <;> simp [fireFir2, h]
@[simp] theorem fireDd_nans : (fireDd s).nans = s.nans := by
  cases h : s.ch.rx <;> simp [fireDd, h]
/-- No firing clears NANS (R14). -/
theorem fireUnit_nans (h : s.nans = true) : (fireUnit u s).nans = true := by
  cases u <;> simp [fireUnit, h]
  cases hc : s.ch.f2 <;> simp [fireRx, hc, h]

end Sys2Proof.Machine
end

