-- ==== Sys2Proof/Machine/HostSide.lean ====
section
/-! DEFINITION. What the host does around the core, as far as the spec defines it exactly: the AGC between AUD_OUT and
AUD_IN as a parameter (43_fm_demodulator.md R239), its reference (R240), the pseudo-instructions of 30_encoding.md R114
as lists of operations, and where a drain ends (70_reset_and_hazards.md R377). The core sees only the operations;
nothing here is part of the step. -/

namespace Sys2Proof.Machine

/-! ### The AGC (R239, R240) -/

/-- An AGC as the parameter R239 makes it: "a state machine from real samples to real samples". -/
structure Agc where
  Carry : Type
  start : Carry
  step : Carry → F32 → Carry × F32

/-- The AGC in state `h` takes the samples in order: its last state and its outputs, one for each sample. -/
def agcRun (g : Agc) (h : g.Carry) (as : List F32) : g.Carry × List F32 :=
  match as with
  | [] => (h, [])
  | a :: rest =>
    let r := g.step h a
    let l := agcRun g r.1 rest
    (l.1, r.2 :: l.2)

/-- The outputs of a whole run, from the AGC's start. -/
def agcOutputs (g : Agc) (as : List F32) : List F32 := (agcRun g g.start as).2

/-- `agc_k(a[0..k])` of R239: the output at step `k`, from the inputs up to `k` alone. -/
def agcAt (g : Agc) (k : Nat) (as : List F32) : Option F32 := (agcOutputs g (as.take (k + 1)))[k]?

/-- The composition of R239, at any moment of a run: what the host has pushed on AUD_IN is what the AGC gives for the
values it has popped from AUD_OUT, in order and with none dropped, up to those still to be pushed. -/
def Composes (g : Agc) (popped pushed : List F32) : Prop := pushed <+: agcOutputs g popped

/-- One turn of the host's AGC loop (R158, R239), possible when AUD_OUT has a value: a POP_AUD, then a PUSH_AUD of what
the AGC in state `h` gives for that value, are scheduled next; the AGC's next state. -/
def agcTurn (g : Agc) (h : g.Carry) (s : State) : Option (g.Carry × State) :=
  match s.ch.aout with
  | [] => none
  | v :: _ =>
    let r := g.step h v
    some (r.1, { s with pending := .txn (encode .popAud) :: .txn (encode (.pushAud r.2)) :: s.pending })

/-- The identity AGC of `LOOPAUD` (R114). -/
def identityAgc : Agc where
  Carry := Unit
  start := ()
  step := fun _ v => ((), v)

/-- One step of the reference AGC (R240): from the gain and a sample, the next gain and the output. With a gain of 0 an
infinite sample gives a NaN, by the pseudocode and R9 (notes/assumptions/21). -/
def agcStep (g x : F32) : F32 × F32 :=
  let y := fmul x g
  if fnan y then (g, y)
  else
    let next := fadd g (fmul 0x38D1B717#32 (fsub fone (fabs y)))
    (fclamp next 0#32 fone, fclamp y fnegOne fone)

/-- The reference AGC (R240): its state is the gain, "`1.0` at START of the host's run". -/
def referenceAgc : Agc where
  Carry := F32
  start := fone
  step := agcStep

/-! ### The pseudo-instructions (R114) -/

/-- `START`: `WR CTRL, 0x00000001` (R114). -/
def pseudoStart : List Instr := [.wrCtrl 0#2 1#32]

/-- `SRESET`: `WR CTRL, 0x00000002` (R114). -/
def pseudoSreset : List Instr := [.wrCtrl 0#2 2#32]

/-- `CLRFLAGS`: `WR STATUS, 0x00000700` (R114). -/
def pseudoClrflags : List Instr := [.wrStatus 0#2 0x700#32]

/-- `SETTAPS b, t0, …, tk` (R114). -/
def pseudoSettaps (bank : BitVec 2) (ts : List F32) : List Instr :=
  .wrTapAddr 0#2 (0#14 ++ bank ++ 0#16) :: ts.map (fun v => .wrTapData 0#2 v)

/-- The first half of `LOOPAUD` and `AGCAUD` (R114), which returns the value the second half takes. -/
def pseudoPopaud : List Instr := [.popAud]

/-- The second half, after a POP_AUD that returned `v`, through the AGC in state `h`: its next state, and the push of its
output (R114, R239). -/
def pseudoPushThrough (g : Agc) (h : g.Carry) (v : F32) : g.Carry × List Instr :=
  ((g.step h v).1, [.pushAud (g.step h v).2])

/-- What `LOOPAUD` pushes after a POP_AUD that returned `v` (R114): the identity AGC. -/
def pseudoLoopaud (v : F32) : List Instr := (pseudoPushThrough identityAgc () v).2

/-- What `AGCAUD` pushes after a POP_AUD that returned `v`, with the reference AGC at gain `g`, and the gain it carries to
the next `AGCAUD` (R114, R240). -/
def pseudoAgcaud (g v : F32) : F32 × List Instr := pseudoPushThrough referenceAgc g v

/-- One round of `DRAIN`: `RD STATUS` (R114); the host repeats it, with its other port activities, until `drained`. -/
def pseudoDrainRound : List Instr := [.rdStatus 0#2]

/-- Whether the STATUS word a round of `DRAIN` read ends it: BUSY, bit 2, reads 0. DESIGN CHOICE (notes/assumptions/20):
R114 and program P4 end DRAIN at BUSY = 0 alone, while R377 also asks that `ch_aout` and `ch_bit` be empty and calls
that DRAIN; here the pseudo-instruction is R114's, and R377's condition is `streamFinished`. -/
def drained (status : Word) : Bool := !status.getLsbD 2

/-- R377's end of stream, after which every bit the input determines has left: BUSY reads 0 and both `ch_aout` and
`ch_bit` are empty (notes/assumptions/20). -/
def streamFinished (s : State) : Bool := !busy s && s.ch.aout.isEmpty && s.ch.bit.isEmpty

end Sys2Proof.Machine
end

