-- ==== Sys2Proof/Laws/HostSide.lean ====
section
/-! SUPPORT. The laws of the host's AGC loop: one output for each input, each from the inputs up to it (R239); what one
turn does to the core; the bound of the reference AGC (R240). -/

namespace Sys2Proof.Machine

variable {g : Agc} {h : g.Carry} {s t : State}

@[simp] theorem agcRun_nil (h : g.Carry) : agcRun g h [] = (h, []) := rfl

@[simp] theorem agcRun_cons (h : g.Carry) (a : F32) (as : List F32) :
    agcRun g h (a :: as) = ((agcRun g (g.step h a).1 as).1, (g.step h a).2 :: (agcRun g (g.step h a).1 as).2) := rfl

/-- No drop: one output for each input. -/
@[simp] theorem agcRun_length (h : g.Carry) (as : List F32) : (agcRun g h as).2.length = as.length := by
  induction as generalizing h with
  | nil => rfl
  | cons a as ih => simp [ih]

/-- A run over two streams is the run over the first, then over the second from where that ended. -/
theorem agcRun_append (h : g.Carry) (as bs : List F32) :
    agcRun g h (as ++ bs) = ((agcRun g (agcRun g h as).1 bs).1, (agcRun g h as).2 ++ (agcRun g (agcRun g h as).1 bs).2) := by
  induction as generalizing h with
  | nil => rfl
  | cons a as ih => simp [ih]

/-- Later inputs do not change earlier outputs. -/
theorem agcOutputs_prefix (g : Agc) (as bs : List F32) : agcOutputs g as <+: agcOutputs g (as ++ bs) := by
  simp [agcOutputs, agcRun_append]

/-- The output at step `k` of a whole run is `agc_k` of the inputs up to `k` (R239). -/
theorem agcOutputs_getElem? (g : Agc) (as : List F32) {k : Nat} (hk : k < as.length) :
    (agcOutputs g as)[k]? = agcAt g k as := by
  obtain ⟨rest, hr⟩ := agcOutputs_prefix g (as.take (k + 1)) (as.drop (k + 1))
  rw [List.take_append_drop] at hr
  rw [agcAt, ← hr, List.getElem?_append_left]
  simp [agcOutputs]
  omega

/-- Pushing the AGC's output for each popped value, one for one, keeps the composition of R239. -/
theorem composes_step (g : Agc) (popped : List F32) (v : F32) :
    Composes g (popped ++ [v])
      (agcOutputs g popped ++ [(g.step (agcRun g g.start popped).1 v).2]) := by
  simp [Composes, agcOutputs, agcRun_append]

/-- All one turn can do: the value AUD_OUT holds first goes through the AGC, and the next step pops exactly that value and
leaves its push first in the schedule. -/
theorem agcTurn_some {k : g.Carry} (ht : agcTurn g h s = some (k, t)) :
    ∃ v rest, s.ch.aout = v :: rest ∧ k = (g.step h v).1 ∧
      step t = .next { s with
        ch := { s.ch with aout := rest }
        ret := some (.aud v)
        pending := .txn ⟨0x2002#16, (g.step h v).2⟩ :: s.pending } := by
  unfold agcTurn at ht
  split at ht
  · cases ht
  · rename_i v rest hv
    simp only [Option.some.injEq, Prod.mk.injEq] at ht
    obtain ⟨rfl, rfl⟩ := ht
    have hd : decode ⟨0x2001#16, 0#32⟩ = .ok .popAud := by decide
    refine ⟨v, rest, hv, rfl, ?_⟩
    simp only [step, encode, hd, exec, execPopAud, hv, answer, retire, List.tail_cons]

/-- The bound of the reference AGC (R240), wherever the product is no NaN. -/
theorem agcStep_bounded {g x : F32} (hy : fnan (fmul x g) = false) : Between fnegOne (agcStep g x).2 fone := by
  simp only [agcStep, hy]
  exact fclamp_between hy (by decide)

end Sys2Proof.Machine
end

