-- ==== Sys2Proof/Laws/Memory.lean ====
section
/-! SUPPORT. The laws of the tap space: reading after a write, the canonical form, and that two canonical memories that
read alike are equal. -/

namespace Sys2Proof.Machine

/-- The empty memory has the canonical form. -/
theorem wf_nil : Memory.wf [] := ⟨List.Pairwise.nil, by simp⟩

theorem wf_cons {c : Nat × F32} {m : Memory} :
    Memory.wf (c :: m) ↔ (∀ d ∈ m, c.1 < d.1) ∧ c.2 ≠ 0#32 ∧ Memory.wf m := by
  simp only [Memory.wf, List.pairwise_cons, List.forall_mem_cons]
  tauto

@[simp] theorem memRead_nil (a : Nat) : memRead [] a = 0#32 := rfl

theorem memRead_cons (c : Nat × F32) (m : Memory) (a : Nat) :
    memRead (c :: m) a = if c.1 = a then c.2 else memRead m a := rfl

/-- An address below every listed one reads `+0`. -/
theorem memRead_eq_zero_of_lt {m : Memory} {a : Nat} (h : ∀ d ∈ m, a < d.1) : memRead m a = 0#32 := by
  induction m with
  | nil => rfl
  | cons c m ih =>
    have hc := h c (by simp)
    rw [memRead_cons, if_neg (by omega)]
    exact ih fun d hd => h d (by simp [hd])

/-- Every entry of a written memory is the written one or was there. -/
theorem mem_memWrite {m : Memory} {a : Nat} {v : F32} {c : Nat × F32} (h : c ∈ memWrite m a v) :
    c = (a, v) ∨ c ∈ m := by
  induction m with
  | nil =>
    simp only [memWrite] at h
    split at h <;> simp_all
  | cons d m ih =>
    simp only [memWrite] at h
    split at h
    · split at h <;> simp_all
    · split at h
      · split at h <;> simp_all
        tauto
      · rcases List.mem_cons.1 h with h | h
        · simp [h]
        · rcases ih h with h | h <;> simp [h]

/-- A write keeps the canonical form. -/
theorem memWrite_wf {m : Memory} (a : Nat) (v : F32) (h : m.wf) : (memWrite m a v).wf := by
  induction m with
  | nil =>
    simp only [memWrite]
    split
    · exact wf_nil
    · exact wf_cons.2 ⟨by simp, by assumption, wf_nil⟩
  | cons d m ih =>
    obtain ⟨hd, hv, hm⟩ := wf_cons.1 h
    simp only [memWrite]
    split
    · split
      · exact h
      · exact wf_cons.2 ⟨fun e he => by
          rcases List.mem_cons.1 he with rfl | he
          · assumption
          · have := hd e he
            omega, by assumption, h⟩
    · split
      · split
        · exact hm
        · exact wf_cons.2 ⟨fun e he => by have := hd e he; simp_all, by assumption, hm⟩
      · refine wf_cons.2 ⟨fun e he => ?_, hv, ih hm⟩
        rcases mem_memWrite he with rfl | he
        · show d.1 < a
          omega
        · exact hd e he

/-- What an address reads after a write. -/
theorem memRead_memWrite {m : Memory} (h : m.wf) (a b : Nat) (v : F32) :
    memRead (memWrite m a v) b = if b = a then v else memRead m b := by
  induction m with
  | nil =>
    simp only [memWrite]
    split
    · split <;> simp_all
    · simp [memRead_cons, eq_comm]
  | cons d m ih =>
    obtain ⟨hd, hv, hm⟩ := wf_cons.1 h
    simp only [memWrite]
    split
    · have hz : memRead (d :: m) a = 0#32 :=
        memRead_eq_zero_of_lt fun e he => by
          rcases List.mem_cons.1 he with rfl | he
          · assumption
          · have := hd e he
            omega
      split
      · split <;> simp_all
      · simp only [memRead_cons, eq_comm]
    · split
      · rename_i hlt heq
        have hz : memRead m a = 0#32 := memRead_eq_zero_of_lt fun e he => by
          have := hd e he
          omega
        split
        · by_cases hb : b = a
          · simp_all
          · simp [memRead_cons, hb, Ne.symm (heq ▸ hb : b ≠ d.1)]
        · by_cases hb : b = a
          · simp [memRead_cons, hb]
          · simp [memRead_cons, hb, Ne.symm hb, Ne.symm (heq ▸ hb : b ≠ d.1)]
      · simp only [memRead_cons, ih hm]
        split
        · rename_i hlt hne heq
          rw [if_neg (by omega)]
        · rfl

/-- Canonical memories that read alike are equal. -/
theorem memory_ext {m n : Memory} (hm : m.wf) (hn : n.wf) (h : ∀ a, memRead m a = memRead n a) : m = n := by
  induction m generalizing n with
  | nil =>
    cases n with
    | nil => rfl
    | cons d n =>
      have := h d.1
      rw [memRead_nil, memRead_cons, if_pos rfl] at this
      exact absurd this.symm (wf_cons.1 hn).2.1
  | cons c m ih =>
    obtain ⟨hc, hcv, hm'⟩ := wf_cons.1 hm
    cases n with
    | nil =>
      have := h c.1
      rw [memRead_nil, memRead_cons, if_pos rfl] at this
      exact absurd this hcv
    | cons d n =>
      obtain ⟨hd, hdv, hn'⟩ := wf_cons.1 hn
      have key : c.1 = d.1 := by
        rcases lt_trichotomy c.1 d.1 with hlt | heq | hgt
        · have := h c.1
          rw [memRead_cons, if_pos rfl, memRead_eq_zero_of_lt (m := d :: n)] at this
          · exact absurd this hcv
          · intro e he
            rcases List.mem_cons.1 he with rfl | he
            · exact hlt
            · exact hlt.trans (hd e he)
        · exact heq
        · have := h d.1
          rw [memRead_cons (d), if_pos rfl, memRead_eq_zero_of_lt (m := c :: m)] at this
          · exact absurd this.symm hdv
          · intro e he
            rcases List.mem_cons.1 he with rfl | he
            · exact hgt
            · exact hgt.trans (hc e he)
      have hval : c.2 = d.2 := by
        have := h c.1
        rwa [memRead_cons, if_pos rfl, memRead_cons, if_pos key.symm] at this
      have : m = n := by
        refine ih hm' hn' fun a => ?_
        by_cases ha : c.1 = a
        · subst ha
          rw [memRead_eq_zero_of_lt hc, memRead_eq_zero_of_lt fun e he => key ▸ hd e he]
        · have := h a
          rwa [memRead_cons, if_neg ha, memRead_cons, if_neg (key ▸ ha)] at this
      rw [Prod.ext key hval, this]

/-- A tap write keeps the canonical form. -/
theorem tapWrite_wf {m : Memory} (b : BitVec 2) (i : Half) (v : F32) (h : m.wf) : (tapWrite m b i v).wf := by
  unfold tapWrite
  split
  · exact memWrite_wf _ _ h
  · exact h

/-- The addresses of two taps are equal only if bank and index are. -/
theorem tapAddress_inj {b c : Nat} {i j : Half} (h : tapAddress b i.toNat = tapAddress c j.toNat) :
    b = c ∧ i = j := by
  have hi := i.isLt
  have hj := j.isLt
  simp only [tapAddress] at h
  exact ⟨by omega, BitVec.eq_of_toNat_eq (by omega)⟩

/-- What a tap reads after a tap write. -/
theorem tapRead_tapWrite {m : Memory} (h : m.wf) (b c : BitVec 2) (i j : Half) (v : F32) :
    tapRead (tapWrite m b i v) c j =
      if c = b ∧ j = i then (if tapSelected b i then v else 0#32) else tapRead m c j := by
  unfold tapRead tapWrite
  by_cases hs : tapSelected b i
  · simp only [hs, if_true, memRead_memWrite h]
    by_cases he : c = b ∧ j = i
    · simp [he, hs]
    · rw [if_neg he]
      have hne : tapAddress c.toNat j.toNat ≠ tapAddress b.toNat i.toNat := fun ht =>
        he ⟨BitVec.eq_of_toNat_eq (tapAddress_inj ht).1, (tapAddress_inj ht).2⟩
      rw [if_neg hne]
  · by_cases he : c = b ∧ j = i
    · simp [he, hs]
    · rw [if_neg he]
      simp only [hs, Bool.false_eq_true, if_false]

end Sys2Proof.Machine
end

