-- ==== Sys2Proof/Laws/PerInstr.lean ====
section
/-! SUPPORT. The statements made of every operation as syntax, one lemma per constructor. `EncodesInTable`: the
encoder's code matches the operation's row of spec/opcode_table.json, `code & mask == match` (30_encoding.md R104). -/

namespace Sys2Proof.Laws

open Sys2Proof

/-- The (match, mask) pair of an operation's row. -/
def tableRow (i : Instr) : Half × Half :=
  match i with
  | .rdId _ => (0x0000#16, 0xFFFC#16)
  | .rdCtrl _ => (0x0004#16, 0xFFFC#16)
  | .rdStatus _ => (0x0008#16, 0xFFFC#16)
  | .rdIrqEn _ => (0x000C#16, 0xFFFC#16)
  | .rdInCount _ => (0x0010#16, 0xFFFC#16)
  | .rdAudCount _ => (0x0014#16, 0xFFFC#16)
  | .rdSymCount _ => (0x0018#16, 0xFFFC#16)
  | .rdBitCount _ => (0x001C#16, 0xFFFC#16)
  | .rdRxFreq _ => (0x0020#16, 0xFFFC#16)
  | .rdRxPhase _ => (0x0024#16, 0xFFFC#16)
  | .rdRxOmega _ => (0x0028#16, 0xFFFC#16)
  | .rdRxMu _ => (0x002C#16, 0xFFFC#16)
  | .rdCsInc _ => (0x0040#16, 0xFFFC#16)
  | .rdCsDecim _ => (0x0044#16, 0xFFFC#16)
  | .rdCsNtaps _ => (0x0048#16, 0xFFFC#16)
  | .rdFmdGain _ => (0x0050#16, 0xFFFC#16)
  | .rdFmdDecim _ => (0x0054#16, 0xFFFC#16)
  | .rdFmdNtaps _ => (0x0058#16, 0xFFFC#16)
  | .rdFmdAlpha _ => (0x005C#16, 0xFFFC#16)
  | .rdTmInc _ => (0x0060#16, 0xFFFC#16)
  | .rdTmDecim _ => (0x0064#16, 0xFFFC#16)
  | .rdTmNtaps _ => (0x0068#16, 0xFFFC#16)
  | .rdRxOmegaMid _ => (0x0070#16, 0xFFFC#16)
  | .rdRxOmegaRel _ => (0x0074#16, 0xFFFC#16)
  | .rdRxGainMu _ => (0x0078#16, 0xFFFC#16)
  | .rdRxGainOmega _ => (0x007C#16, 0xFFFC#16)
  | .rdRxAlpha _ => (0x0080#16, 0xFFFC#16)
  | .rdRxBeta _ => (0x0084#16, 0xFFFC#16)
  | .rdRxFmin _ => (0x0088#16, 0xFFFC#16)
  | .rdRxFmax _ => (0x008C#16, 0xFFFC#16)
  | .rdDdSkip _ => (0x0090#16, 0xFFFC#16)
  | .rdTapAddr _ => (0x0100#16, 0xFFFC#16)
  | .rdTapData _ => (0x0104#16, 0xFFFC#16)
  | .wrId _ _ => (0x1000#16, 0xFFFC#16)
  | .wrCtrl _ _ => (0x1004#16, 0xFFFC#16)
  | .wrStatus _ _ => (0x1008#16, 0xFFFC#16)
  | .wrIrqEn _ _ => (0x100C#16, 0xFFFC#16)
  | .wrInCount _ _ => (0x1010#16, 0xFFFC#16)
  | .wrAudCount _ _ => (0x1014#16, 0xFFFC#16)
  | .wrSymCount _ _ => (0x1018#16, 0xFFFC#16)
  | .wrBitCount _ _ => (0x101C#16, 0xFFFC#16)
  | .wrRxFreq _ _ => (0x1020#16, 0xFFFC#16)
  | .wrRxPhase _ _ => (0x1024#16, 0xFFFC#16)
  | .wrRxOmega _ _ => (0x1028#16, 0xFFFC#16)
  | .wrRxMu _ _ => (0x102C#16, 0xFFFC#16)
  | .wrCsInc _ _ => (0x1040#16, 0xFFFC#16)
  | .wrCsDecim _ _ => (0x1044#16, 0xFFFC#16)
  | .wrCsNtaps _ _ => (0x1048#16, 0xFFFC#16)
  | .wrFmdGain _ _ => (0x1050#16, 0xFFFC#16)
  | .wrFmdDecim _ _ => (0x1054#16, 0xFFFC#16)
  | .wrFmdNtaps _ _ => (0x1058#16, 0xFFFC#16)
  | .wrFmdAlpha _ _ => (0x105C#16, 0xFFFC#16)
  | .wrTmInc _ _ => (0x1060#16, 0xFFFC#16)
  | .wrTmDecim _ _ => (0x1064#16, 0xFFFC#16)
  | .wrTmNtaps _ _ => (0x1068#16, 0xFFFC#16)
  | .wrRxOmegaMid _ _ => (0x1070#16, 0xFFFC#16)
  | .wrRxOmegaRel _ _ => (0x1074#16, 0xFFFC#16)
  | .wrRxGainMu _ _ => (0x1078#16, 0xFFFC#16)
  | .wrRxGainOmega _ _ => (0x107C#16, 0xFFFC#16)
  | .wrRxAlpha _ _ => (0x1080#16, 0xFFFC#16)
  | .wrRxBeta _ _ => (0x1084#16, 0xFFFC#16)
  | .wrRxFmin _ _ => (0x1088#16, 0xFFFC#16)
  | .wrRxFmax _ _ => (0x108C#16, 0xFFFC#16)
  | .wrDdSkip _ _ => (0x1090#16, 0xFFFC#16)
  | .wrTapAddr _ _ => (0x1100#16, 0xFFFC#16)
  | .wrTapData _ _ => (0x1104#16, 0xFFFC#16)
  | .rdUnmapped _ => (0x0000#16, 0xF000#16)
  | .wrUnmapped _ _ => (0x1000#16, 0xF000#16)
  | .pushIq _ _ => (0x2000#16, 0xFFFF#16)
  | .popAud => (0x2001#16, 0xFFFF#16)
  | .pushAud _ => (0x2002#16, 0xFFFF#16)
  | .popBit => (0x2003#16, 0xFFFF#16)
  | .fireMix0 => (0x3000#16, 0xFFFF#16)
  | .fireFir0 => (0x3001#16, 0xFFFF#16)
  | .fireQd => (0x3002#16, 0xFFFF#16)
  | .fireFir1 => (0x3003#16, 0xFFFF#16)
  | .fireDe => (0x3004#16, 0xFFFF#16)
  | .fireMix1 => (0x3005#16, 0xFFFF#16)
  | .fireFir2 => (0x3006#16, 0xFFFF#16)
  | .fireRx => (0x3007#16, 0xFFFF#16)
  | .fireDd => (0x3008#16, 0xFFFF#16)

/-- The encoder's code matches the operation's row of the table. -/
def EncodesInTable.Statement (i : Instr) : Prop := (encode i).code &&& (tableRow i).2 = (tableRow i).1

/-- A bus code matches its register's row for each of the four ignored low addresses. -/
theorem busCode_masked (k : BitVec 4) (r : BitVec 10) (b : BitVec 2) :
    busCode k r b &&& 0xFFFC#16 = busCode k r 0#2 := by
  show (k ++ r ++ b) &&& (0xF#4 ++ 0x3FF#10 ++ 0#2) = k ++ r ++ 0#2
  have h4 : k &&& 0xF#4 = k := BitVec.and_allOnes
  have h10 : r &&& 0x3FF#10 = r := BitVec.and_allOnes
  rw [BitVec.and_append, BitVec.and_append, h4, h10, BitVec.and_zero]

/-- An unmapped access matches its KIND's row. -/
theorem kindCode_masked (k : BitVec 4) (a : BitVec 12) : (k ++ a : Half) &&& 0xF000#16 = k ++ 0#12 := by
  show (k ++ a) &&& (0xF#4 ++ 0#12) = k ++ 0#12
  have h4 : k &&& 0xF#4 = k := BitVec.and_allOnes
  rw [BitVec.and_append, h4, BitVec.and_zero]

theorem EncodesInTable.rdId (b : BitVec 2) : EncodesInTable.Statement (.rdId b) :=
  busCode_masked _ _ b
theorem EncodesInTable.rdCtrl (b : BitVec 2) : EncodesInTable.Statement (.rdCtrl b) :=
  busCode_masked _ _ b
theorem EncodesInTable.rdStatus (b : BitVec 2) : EncodesInTable.Statement (.rdStatus b) :=
  busCode_masked _ _ b
theorem EncodesInTable.rdIrqEn (b : BitVec 2) : EncodesInTable.Statement (.rdIrqEn b) :=
  busCode_masked _ _ b
theorem EncodesInTable.rdInCount (b : BitVec 2) : EncodesInTable.Statement (.rdInCount b) :=
  busCode_masked _ _ b
theorem EncodesInTable.rdAudCount (b : BitVec 2) : EncodesInTable.Statement (.rdAudCount b) :=
  busCode_masked _ _ b
theorem EncodesInTable.rdSymCount (b : BitVec 2) : EncodesInTable.Statement (.rdSymCount b) :=
  busCode_masked _ _ b
theorem EncodesInTable.rdBitCount (b : BitVec 2) : EncodesInTable.Statement (.rdBitCount b) :=
  busCode_masked _ _ b
theorem EncodesInTable.rdRxFreq (b : BitVec 2) : EncodesInTable.Statement (.rdRxFreq b) :=
  busCode_masked _ _ b
theorem EncodesInTable.rdRxPhase (b : BitVec 2) : EncodesInTable.Statement (.rdRxPhase b) :=
  busCode_masked _ _ b
theorem EncodesInTable.rdRxOmega (b : BitVec 2) : EncodesInTable.Statement (.rdRxOmega b) :=
  busCode_masked _ _ b
theorem EncodesInTable.rdRxMu (b : BitVec 2) : EncodesInTable.Statement (.rdRxMu b) :=
  busCode_masked _ _ b
theorem EncodesInTable.rdCsInc (b : BitVec 2) : EncodesInTable.Statement (.rdCsInc b) :=
  busCode_masked _ _ b
theorem EncodesInTable.rdCsDecim (b : BitVec 2) : EncodesInTable.Statement (.rdCsDecim b) :=
  busCode_masked _ _ b
theorem EncodesInTable.rdCsNtaps (b : BitVec 2) : EncodesInTable.Statement (.rdCsNtaps b) :=
  busCode_masked _ _ b
theorem EncodesInTable.rdFmdGain (b : BitVec 2) : EncodesInTable.Statement (.rdFmdGain b) :=
  busCode_masked _ _ b
theorem EncodesInTable.rdFmdDecim (b : BitVec 2) : EncodesInTable.Statement (.rdFmdDecim b) :=
  busCode_masked _ _ b
theorem EncodesInTable.rdFmdNtaps (b : BitVec 2) : EncodesInTable.Statement (.rdFmdNtaps b) :=
  busCode_masked _ _ b
theorem EncodesInTable.rdFmdAlpha (b : BitVec 2) : EncodesInTable.Statement (.rdFmdAlpha b) :=
  busCode_masked _ _ b
theorem EncodesInTable.rdTmInc (b : BitVec 2) : EncodesInTable.Statement (.rdTmInc b) :=
  busCode_masked _ _ b
theorem EncodesInTable.rdTmDecim (b : BitVec 2) : EncodesInTable.Statement (.rdTmDecim b) :=
  busCode_masked _ _ b
theorem EncodesInTable.rdTmNtaps (b : BitVec 2) : EncodesInTable.Statement (.rdTmNtaps b) :=
  busCode_masked _ _ b
theorem EncodesInTable.rdRxOmegaMid (b : BitVec 2) : EncodesInTable.Statement (.rdRxOmegaMid b) :=
  busCode_masked _ _ b
theorem EncodesInTable.rdRxOmegaRel (b : BitVec 2) : EncodesInTable.Statement (.rdRxOmegaRel b) :=
  busCode_masked _ _ b
theorem EncodesInTable.rdRxGainMu (b : BitVec 2) : EncodesInTable.Statement (.rdRxGainMu b) :=
  busCode_masked _ _ b
theorem EncodesInTable.rdRxGainOmega (b : BitVec 2) : EncodesInTable.Statement (.rdRxGainOmega b) :=
  busCode_masked _ _ b
theorem EncodesInTable.rdRxAlpha (b : BitVec 2) : EncodesInTable.Statement (.rdRxAlpha b) :=
  busCode_masked _ _ b
theorem EncodesInTable.rdRxBeta (b : BitVec 2) : EncodesInTable.Statement (.rdRxBeta b) :=
  busCode_masked _ _ b
theorem EncodesInTable.rdRxFmin (b : BitVec 2) : EncodesInTable.Statement (.rdRxFmin b) :=
  busCode_masked _ _ b
theorem EncodesInTable.rdRxFmax (b : BitVec 2) : EncodesInTable.Statement (.rdRxFmax b) :=
  busCode_masked _ _ b
theorem EncodesInTable.rdDdSkip (b : BitVec 2) : EncodesInTable.Statement (.rdDdSkip b) :=
  busCode_masked _ _ b
theorem EncodesInTable.rdTapAddr (b : BitVec 2) : EncodesInTable.Statement (.rdTapAddr b) :=
  busCode_masked _ _ b
theorem EncodesInTable.rdTapData (b : BitVec 2) : EncodesInTable.Statement (.rdTapData b) :=
  busCode_masked _ _ b
theorem EncodesInTable.wrId (b : BitVec 2) (v : Word) : EncodesInTable.Statement (.wrId b v) :=
  busCode_masked _ _ b
theorem EncodesInTable.wrCtrl (b : BitVec 2) (v : Word) : EncodesInTable.Statement (.wrCtrl b v) :=
  busCode_masked _ _ b
theorem EncodesInTable.wrStatus (b : BitVec 2) (v : Word) : EncodesInTable.Statement (.wrStatus b v) :=
  busCode_masked _ _ b
theorem EncodesInTable.wrIrqEn (b : BitVec 2) (v : Word) : EncodesInTable.Statement (.wrIrqEn b v) :=
  busCode_masked _ _ b
theorem EncodesInTable.wrInCount (b : BitVec 2) (v : Word) : EncodesInTable.Statement (.wrInCount b v) :=
  busCode_masked _ _ b
theorem EncodesInTable.wrAudCount (b : BitVec 2) (v : Word) : EncodesInTable.Statement (.wrAudCount b v) :=
  busCode_masked _ _ b
theorem EncodesInTable.wrSymCount (b : BitVec 2) (v : Word) : EncodesInTable.Statement (.wrSymCount b v) :=
  busCode_masked _ _ b
theorem EncodesInTable.wrBitCount (b : BitVec 2) (v : Word) : EncodesInTable.Statement (.wrBitCount b v) :=
  busCode_masked _ _ b
theorem EncodesInTable.wrRxFreq (b : BitVec 2) (v : Word) : EncodesInTable.Statement (.wrRxFreq b v) :=
  busCode_masked _ _ b
theorem EncodesInTable.wrRxPhase (b : BitVec 2) (v : Word) : EncodesInTable.Statement (.wrRxPhase b v) :=
  busCode_masked _ _ b
theorem EncodesInTable.wrRxOmega (b : BitVec 2) (v : Word) : EncodesInTable.Statement (.wrRxOmega b v) :=
  busCode_masked _ _ b
theorem EncodesInTable.wrRxMu (b : BitVec 2) (v : Word) : EncodesInTable.Statement (.wrRxMu b v) :=
  busCode_masked _ _ b
theorem EncodesInTable.wrCsInc (b : BitVec 2) (v : Word) : EncodesInTable.Statement (.wrCsInc b v) :=
  busCode_masked _ _ b
theorem EncodesInTable.wrCsDecim (b : BitVec 2) (v : Word) : EncodesInTable.Statement (.wrCsDecim b v) :=
  busCode_masked _ _ b
theorem EncodesInTable.wrCsNtaps (b : BitVec 2) (v : Word) : EncodesInTable.Statement (.wrCsNtaps b v) :=
  busCode_masked _ _ b
theorem EncodesInTable.wrFmdGain (b : BitVec 2) (v : Word) : EncodesInTable.Statement (.wrFmdGain b v) :=
  busCode_masked _ _ b
theorem EncodesInTable.wrFmdDecim (b : BitVec 2) (v : Word) : EncodesInTable.Statement (.wrFmdDecim b v) :=
  busCode_masked _ _ b
theorem EncodesInTable.wrFmdNtaps (b : BitVec 2) (v : Word) : EncodesInTable.Statement (.wrFmdNtaps b v) :=
  busCode_masked _ _ b
theorem EncodesInTable.wrFmdAlpha (b : BitVec 2) (v : Word) : EncodesInTable.Statement (.wrFmdAlpha b v) :=
  busCode_masked _ _ b
theorem EncodesInTable.wrTmInc (b : BitVec 2) (v : Word) : EncodesInTable.Statement (.wrTmInc b v) :=
  busCode_masked _ _ b
theorem EncodesInTable.wrTmDecim (b : BitVec 2) (v : Word) : EncodesInTable.Statement (.wrTmDecim b v) :=
  busCode_masked _ _ b
theorem EncodesInTable.wrTmNtaps (b : BitVec 2) (v : Word) : EncodesInTable.Statement (.wrTmNtaps b v) :=
  busCode_masked _ _ b
theorem EncodesInTable.wrRxOmegaMid (b : BitVec 2) (v : Word) : EncodesInTable.Statement (.wrRxOmegaMid b v) :=
  busCode_masked _ _ b
theorem EncodesInTable.wrRxOmegaRel (b : BitVec 2) (v : Word) : EncodesInTable.Statement (.wrRxOmegaRel b v) :=
  busCode_masked _ _ b
theorem EncodesInTable.wrRxGainMu (b : BitVec 2) (v : Word) : EncodesInTable.Statement (.wrRxGainMu b v) :=
  busCode_masked _ _ b
theorem EncodesInTable.wrRxGainOmega (b : BitVec 2) (v : Word) : EncodesInTable.Statement (.wrRxGainOmega b v) :=
  busCode_masked _ _ b
theorem EncodesInTable.wrRxAlpha (b : BitVec 2) (v : Word) : EncodesInTable.Statement (.wrRxAlpha b v) :=
  busCode_masked _ _ b
theorem EncodesInTable.wrRxBeta (b : BitVec 2) (v : Word) : EncodesInTable.Statement (.wrRxBeta b v) :=
  busCode_masked _ _ b
theorem EncodesInTable.wrRxFmin (b : BitVec 2) (v : Word) : EncodesInTable.Statement (.wrRxFmin b v) :=
  busCode_masked _ _ b
theorem EncodesInTable.wrRxFmax (b : BitVec 2) (v : Word) : EncodesInTable.Statement (.wrRxFmax b v) :=
  busCode_masked _ _ b
theorem EncodesInTable.wrDdSkip (b : BitVec 2) (v : Word) : EncodesInTable.Statement (.wrDdSkip b v) :=
  busCode_masked _ _ b
theorem EncodesInTable.wrTapAddr (b : BitVec 2) (v : Word) : EncodesInTable.Statement (.wrTapAddr b v) :=
  busCode_masked _ _ b
theorem EncodesInTable.wrTapData (b : BitVec 2) (v : Word) : EncodesInTable.Statement (.wrTapData b v) :=
  busCode_masked _ _ b
theorem EncodesInTable.rdUnmapped (a : BitVec 12) : EncodesInTable.Statement (.rdUnmapped a) :=
  kindCode_masked _ a
theorem EncodesInTable.wrUnmapped (a : BitVec 12) (v : Word) : EncodesInTable.Statement (.wrUnmapped a v) :=
  kindCode_masked _ a
theorem EncodesInTable.pushIq (i q : Byte) : EncodesInTable.Statement (.pushIq i q) := by
  unfold EncodesInTable.Statement
  show (0x2000#16 &&& 0xFFFF#16 : Half) = 0x2000#16
  decide
theorem EncodesInTable.popAud : EncodesInTable.Statement (.popAud) := by
  unfold EncodesInTable.Statement
  decide
theorem EncodesInTable.pushAud (v : F32) : EncodesInTable.Statement (.pushAud v) := by
  unfold EncodesInTable.Statement
  show (0x2002#16 &&& 0xFFFF#16 : Half) = 0x2002#16
  decide
theorem EncodesInTable.popBit : EncodesInTable.Statement (.popBit) := by
  unfold EncodesInTable.Statement
  decide
theorem EncodesInTable.fireMix0 : EncodesInTable.Statement (.fireMix0) := by
  unfold EncodesInTable.Statement
  decide
theorem EncodesInTable.fireFir0 : EncodesInTable.Statement (.fireFir0) := by
  unfold EncodesInTable.Statement
  decide
theorem EncodesInTable.fireQd : EncodesInTable.Statement (.fireQd) := by
  unfold EncodesInTable.Statement
  decide
theorem EncodesInTable.fireFir1 : EncodesInTable.Statement (.fireFir1) := by
  unfold EncodesInTable.Statement
  decide
theorem EncodesInTable.fireDe : EncodesInTable.Statement (.fireDe) := by
  unfold EncodesInTable.Statement
  decide
theorem EncodesInTable.fireMix1 : EncodesInTable.Statement (.fireMix1) := by
  unfold EncodesInTable.Statement
  decide
theorem EncodesInTable.fireFir2 : EncodesInTable.Statement (.fireFir2) := by
  unfold EncodesInTable.Statement
  decide
theorem EncodesInTable.fireRx : EncodesInTable.Statement (.fireRx) := by
  unfold EncodesInTable.Statement
  decide
theorem EncodesInTable.fireDd : EncodesInTable.Statement (.fireDd) := by
  unfold EncodesInTable.Statement
  decide

end Sys2Proof.Laws
end

