-- ==== Sys2Proof/Machine/NumReference.lean ====
section
/-! DEFINITION. The reference instance of `Num` (00_scope.md R11: "returns `f32` of the exact real result") computed on
fixed-point integers of 400 fraction bits. It is no part of the step, which takes `Num` as a parameter; tests use it
where a vector of 95_test_vectors.md depends on `Num`. That its rounding is correct for every argument is UNVERIFIED
(notes/assumptions/17). -/

namespace Sys2Proof.Machine

/-- 1 in fixed point. -/
def fxOne : Nat := 2 ^ 200 * 2 ^ 200

/-- 2π in fixed point. -/
def fxTwoPi : Nat :=
  0x6487ed5110b4611a62633145c06e0e68948127044533e63a0105df531d89cd9128a5043cc71a026ef7ca8cd9e69d218d98158

/-- A power series in `x²`: each term is the last times `-x²` over two consecutive integers from `k` on. -/
def fxSeries (fuel k : Nat) (x2 term acc : Int) : Int :=
  match fuel with
  | 0 => acc
  | n + 1 =>
    let t := -(term * x2 / fxOne) / ((k * (k + 1) : Nat) : Int)
    fxSeries n (k + 2) x2 t (acc + t)

/-- The cosine of a fixed-point angle in `[0, 2π)`. -/
def fxCos (r : Int) : Int := fxSeries 64 1 (r * r / fxOne) fxOne fxOne

/-- The sine of a fixed-point angle in `[0, 2π)`. -/
def fxSin (r : Int) : Int := fxSeries 64 2 (r * r / fxOne) r r

/-- Euler's series of the arctangent for a ratio in `[0, 1]`, `y = t²/(1 + t²)`. -/
def fxEuler (fuel k : Nat) (y term acc : Nat) : Nat :=
  match fuel with
  | 0 => acc
  | n + 1 =>
    let t := term * y / fxOne * (2 * k + 2) / (2 * k + 3)
    fxEuler n (k + 1) y t (acc + t)

/-- The arctangent of a fixed-point ratio in `[0, 1]`. -/
def fxAtan (t : Nat) : Nat :=
  let t2 := t * t / fxOne
  let first := t * fxOne / (fxOne + t2)
  fxEuler 340 0 (t2 * fxOne / (fxOne + t2)) first first

/-- `f32` of a fixed-point number (R8). -/
def fxRound (v : Int) : F32 := fofFrac (decide (v < 0)) v.natAbs fxOne

/-- A finite angle in radians, reduced to `[0, 2π)` in fixed point. -/
def fxAngle (x : F32) : Int := (fval x * (2 ^ 251 : Nat)) % (fxTwoPi : Int)

/-- A turn count of 2^-32 in fixed point. -/
def fxTurn (a : Word) : Int := ((a.toNat * fxTwoPi / 2 ^ 32 : Nat) : Int)

/-- The angle of a point with coordinates of magnitude `ay`, `ax`, not both zero, in `[0, π/2]`. -/
def fxQuadrant (ay ax : Nat) : Nat :=
  if ay ≤ ax then fxAtan (ay * fxOne / ax) else fxTwoPi / 4 - fxAtan (ax * fxOne / ay)

/-- The magnitude of a coordinate for the ratio; two infinities count as equal. -/
def fxMagnitude (a other : F32) : Nat :=
  if finf a then 1 else if finf other then 0 else magUnits (fmag a)

/-- The correctly rounded `atan2` away from R11's special cases. -/
def refAtan2 (y x : F32) : F32 :=
  let q := fxQuadrant (fxMagnitude y x) (fxMagnitude x y)
  let angle := if fsign x then fxTwoPi / 2 - q else q
  fofFrac (fsign y) angle fxOne

/-- `sin(x)` or `cos(x)` of a value that is not finite has no exact real result. -/
def refRadians (f : Int → Int) (x : F32) : F32 := if ffinite x then fxRound (f (fxAngle x)) else qnan

/-- The reference instance of R11. -/
def numReference : Num :=
  numAdmitting (fun a => fxRound (fxCos (fxTurn a))) (fun a => fxRound (fxSin (fxTurn a))) (refRadians fxCos)
    (refRadians fxSin) refAtan2

end Sys2Proof.Machine
end

