-- ==== Sys2Proof/Tests/Slice0.lean ====
section
/-! SUPPORT. Tests: every constructor's decoding on a word written out from 30_encoding.md R104; what one step does, on
the vectors of 95_test_vectors.md (each test names its vector) with the reference `Num` and `FIR_DOT` where a value
depends on them; and, for every obligation with hypotheses, a named state and operands that meet them together. -/

namespace Sys2Proof.Tests

open Sys2Proof.Machine

/-! ### Helpers -/

/-- The next state of an outcome. -/
def after (r : Result) : Option State :=
  match r with
  | .next s => some s
  | _ => none

/-- What an operation returned. -/
def returnedBy (i : Instr) (s : State) : Option (Option Returned) := (after (exec i s)).map (·.ret)

/-- The base configuration V of section 3.2 of the vectors. -/
def configV : CfgRegs :=
  { CfgRegs.atReset with
    csDecim := 1#16, csNtaps := 1#16, fmdGain := fone, fmdDecim := 1#16, fmdNtaps := 1#16, fmdAlpha := fone
    tmDecim := 1#16, tmNtaps := 1#16, rxOmegaMid := 0x40000000#32, rxOmegaRel := 0#32, rxGainMu := 0#32
    rxGainOmega := 0#32, rxAlpha := 0#32, rxBeta := 0#32 }

/-- Hard reset, then V written. -/
def configured : State := { State.reset with cfg := configV }

/-- As a START that passes leaves it. -/
def running : State := startRun configured

/-- A running state with these channels. -/
def runningWith (c : Channels) : State := { running with ch := c }

/-- `ch` with one element in every channel, so that every unit has something to take. -/
def oneEach : Channels :=
  { iq := [0x00FF#16], mx0 := [⟨fone, 0#32⟩], f0 := [⟨0#32, fone⟩], qd := [fone], f1 := [fone], aout := [], ain := [fone]
    mx1 := [⟨fone, 0#32⟩], f2 := [⟨fone, 0#32⟩], rx := [⟨fone, 0#32⟩], bit := [] }

/-- Ten as a complex sample with zero quadrature, and so on: a real lane alone. -/
def realC (a : F32) : C32 := ⟨a, 0#32⟩

/-! ### Decoding -/

/-- Code 0x0000, mask 0xFFFC, `addr[1:0]` 0. -/
theorem test_decode_rdId : decode ⟨0x0000#16, 0x5A5A5A5A#32⟩ = .ok (.rdId 0#2) := by decide

/-- Code 0x0004, mask 0xFFFC, `addr[1:0]` 1. -/
theorem test_decode_rdCtrl : decode ⟨0x0005#16, 0x5A5A5A5A#32⟩ = .ok (.rdCtrl 1#2) := by decide

/-- Code 0x0008, mask 0xFFFC, `addr[1:0]` 2. -/
theorem test_decode_rdStatus : decode ⟨0x000A#16, 0x5A5A5A5A#32⟩ = .ok (.rdStatus 2#2) := by decide

/-- Code 0x000C, mask 0xFFFC, `addr[1:0]` 3. -/
theorem test_decode_rdIrqEn : decode ⟨0x000F#16, 0x5A5A5A5A#32⟩ = .ok (.rdIrqEn 3#2) := by decide

/-- Code 0x0010, mask 0xFFFC, `addr[1:0]` 0. -/
theorem test_decode_rdInCount : decode ⟨0x0010#16, 0x5A5A5A5A#32⟩ = .ok (.rdInCount 0#2) := by decide

/-- Code 0x0014, mask 0xFFFC, `addr[1:0]` 1. -/
theorem test_decode_rdAudCount : decode ⟨0x0015#16, 0x5A5A5A5A#32⟩ = .ok (.rdAudCount 1#2) := by decide

/-- Code 0x0018, mask 0xFFFC, `addr[1:0]` 2. -/
theorem test_decode_rdSymCount : decode ⟨0x001A#16, 0x5A5A5A5A#32⟩ = .ok (.rdSymCount 2#2) := by decide

/-- Code 0x001C, mask 0xFFFC, `addr[1:0]` 3. -/
theorem test_decode_rdBitCount : decode ⟨0x001F#16, 0x5A5A5A5A#32⟩ = .ok (.rdBitCount 3#2) := by decide

/-- Code 0x0020, mask 0xFFFC, `addr[1:0]` 0. -/
theorem test_decode_rdRxFreq : decode ⟨0x0020#16, 0x5A5A5A5A#32⟩ = .ok (.rdRxFreq 0#2) := by decide

/-- Code 0x0024, mask 0xFFFC, `addr[1:0]` 1. -/
theorem test_decode_rdRxPhase : decode ⟨0x0025#16, 0x5A5A5A5A#32⟩ = .ok (.rdRxPhase 1#2) := by decide

/-- Code 0x0028, mask 0xFFFC, `addr[1:0]` 2. -/
theorem test_decode_rdRxOmega : decode ⟨0x002A#16, 0x5A5A5A5A#32⟩ = .ok (.rdRxOmega 2#2) := by decide

/-- Code 0x002C, mask 0xFFFC, `addr[1:0]` 3. -/
theorem test_decode_rdRxMu : decode ⟨0x002F#16, 0x5A5A5A5A#32⟩ = .ok (.rdRxMu 3#2) := by decide

/-- Code 0x0040, mask 0xFFFC, `addr[1:0]` 0. -/
theorem test_decode_rdCsInc : decode ⟨0x0040#16, 0x5A5A5A5A#32⟩ = .ok (.rdCsInc 0#2) := by decide

/-- Code 0x0044, mask 0xFFFC, `addr[1:0]` 1. -/
theorem test_decode_rdCsDecim : decode ⟨0x0045#16, 0x5A5A5A5A#32⟩ = .ok (.rdCsDecim 1#2) := by decide

/-- Code 0x0048, mask 0xFFFC, `addr[1:0]` 2. -/
theorem test_decode_rdCsNtaps : decode ⟨0x004A#16, 0x5A5A5A5A#32⟩ = .ok (.rdCsNtaps 2#2) := by decide

/-- Code 0x0050, mask 0xFFFC, `addr[1:0]` 3. -/
theorem test_decode_rdFmdGain : decode ⟨0x0053#16, 0x5A5A5A5A#32⟩ = .ok (.rdFmdGain 3#2) := by decide

/-- Code 0x0054, mask 0xFFFC, `addr[1:0]` 0. -/
theorem test_decode_rdFmdDecim : decode ⟨0x0054#16, 0x5A5A5A5A#32⟩ = .ok (.rdFmdDecim 0#2) := by decide

/-- Code 0x0058, mask 0xFFFC, `addr[1:0]` 1. -/
theorem test_decode_rdFmdNtaps : decode ⟨0x0059#16, 0x5A5A5A5A#32⟩ = .ok (.rdFmdNtaps 1#2) := by decide

/-- Code 0x005C, mask 0xFFFC, `addr[1:0]` 2. -/
theorem test_decode_rdFmdAlpha : decode ⟨0x005E#16, 0x5A5A5A5A#32⟩ = .ok (.rdFmdAlpha 2#2) := by decide

/-- Code 0x0060, mask 0xFFFC, `addr[1:0]` 3. -/
theorem test_decode_rdTmInc : decode ⟨0x0063#16, 0x5A5A5A5A#32⟩ = .ok (.rdTmInc 3#2) := by decide

/-- Code 0x0064, mask 0xFFFC, `addr[1:0]` 0. -/
theorem test_decode_rdTmDecim : decode ⟨0x0064#16, 0x5A5A5A5A#32⟩ = .ok (.rdTmDecim 0#2) := by decide

/-- Code 0x0068, mask 0xFFFC, `addr[1:0]` 1. -/
theorem test_decode_rdTmNtaps : decode ⟨0x0069#16, 0x5A5A5A5A#32⟩ = .ok (.rdTmNtaps 1#2) := by decide

/-- Code 0x0070, mask 0xFFFC, `addr[1:0]` 2. -/
theorem test_decode_rdRxOmegaMid : decode ⟨0x0072#16, 0x5A5A5A5A#32⟩ = .ok (.rdRxOmegaMid 2#2) := by decide

/-- Code 0x0074, mask 0xFFFC, `addr[1:0]` 3. -/
theorem test_decode_rdRxOmegaRel : decode ⟨0x0077#16, 0x5A5A5A5A#32⟩ = .ok (.rdRxOmegaRel 3#2) := by decide

/-- Code 0x0078, mask 0xFFFC, `addr[1:0]` 0. -/
theorem test_decode_rdRxGainMu : decode ⟨0x0078#16, 0x5A5A5A5A#32⟩ = .ok (.rdRxGainMu 0#2) := by decide

/-- Code 0x007C, mask 0xFFFC, `addr[1:0]` 1. -/
theorem test_decode_rdRxGainOmega : decode ⟨0x007D#16, 0x5A5A5A5A#32⟩ = .ok (.rdRxGainOmega 1#2) := by decide

/-- Code 0x0080, mask 0xFFFC, `addr[1:0]` 2. -/
theorem test_decode_rdRxAlpha : decode ⟨0x0082#16, 0x5A5A5A5A#32⟩ = .ok (.rdRxAlpha 2#2) := by decide

/-- Code 0x0084, mask 0xFFFC, `addr[1:0]` 3. -/
theorem test_decode_rdRxBeta : decode ⟨0x0087#16, 0x5A5A5A5A#32⟩ = .ok (.rdRxBeta 3#2) := by decide

/-- Code 0x0088, mask 0xFFFC, `addr[1:0]` 0. -/
theorem test_decode_rdRxFmin : decode ⟨0x0088#16, 0x5A5A5A5A#32⟩ = .ok (.rdRxFmin 0#2) := by decide

/-- Code 0x008C, mask 0xFFFC, `addr[1:0]` 1. -/
theorem test_decode_rdRxFmax : decode ⟨0x008D#16, 0x5A5A5A5A#32⟩ = .ok (.rdRxFmax 1#2) := by decide

/-- Code 0x0090, mask 0xFFFC, `addr[1:0]` 2. -/
theorem test_decode_rdDdSkip : decode ⟨0x0092#16, 0x5A5A5A5A#32⟩ = .ok (.rdDdSkip 2#2) := by decide

/-- Code 0x0100, mask 0xFFFC, `addr[1:0]` 3. -/
theorem test_decode_rdTapAddr : decode ⟨0x0103#16, 0x5A5A5A5A#32⟩ = .ok (.rdTapAddr 3#2) := by decide

/-- Code 0x0104, mask 0xFFFC, `addr[1:0]` 0. -/
theorem test_decode_rdTapData : decode ⟨0x0104#16, 0x5A5A5A5A#32⟩ = .ok (.rdTapData 0#2) := by decide

/-- Code 0x1000, mask 0xFFFC, `addr[1:0]` 1. -/
theorem test_decode_wrId : decode ⟨0x1001#16, 0x80000001#32⟩ = .ok (.wrId 1#2 0x80000001#32) := by decide

/-- Code 0x1004, mask 0xFFFC, `addr[1:0]` 2. -/
theorem test_decode_wrCtrl : decode ⟨0x1006#16, 0x80000001#32⟩ = .ok (.wrCtrl 2#2 0x80000001#32) := by decide

/-- Code 0x1008, mask 0xFFFC, `addr[1:0]` 3. -/
theorem test_decode_wrStatus : decode ⟨0x100B#16, 0x80000001#32⟩ = .ok (.wrStatus 3#2 0x80000001#32) := by decide

/-- Code 0x100C, mask 0xFFFC, `addr[1:0]` 0. -/
theorem test_decode_wrIrqEn : decode ⟨0x100C#16, 0x80000001#32⟩ = .ok (.wrIrqEn 0#2 0x80000001#32) := by decide

/-- Code 0x1010, mask 0xFFFC, `addr[1:0]` 1. -/
theorem test_decode_wrInCount : decode ⟨0x1011#16, 0x80000001#32⟩ = .ok (.wrInCount 1#2 0x80000001#32) := by decide

/-- Code 0x1014, mask 0xFFFC, `addr[1:0]` 2. -/
theorem test_decode_wrAudCount : decode ⟨0x1016#16, 0x80000001#32⟩ = .ok (.wrAudCount 2#2 0x80000001#32) := by decide

/-- Code 0x1018, mask 0xFFFC, `addr[1:0]` 3. -/
theorem test_decode_wrSymCount : decode ⟨0x101B#16, 0x80000001#32⟩ = .ok (.wrSymCount 3#2 0x80000001#32) := by decide

/-- Code 0x101C, mask 0xFFFC, `addr[1:0]` 0. -/
theorem test_decode_wrBitCount : decode ⟨0x101C#16, 0x80000001#32⟩ = .ok (.wrBitCount 0#2 0x80000001#32) := by decide

/-- Code 0x1020, mask 0xFFFC, `addr[1:0]` 1. -/
theorem test_decode_wrRxFreq : decode ⟨0x1021#16, 0x80000001#32⟩ = .ok (.wrRxFreq 1#2 0x80000001#32) := by decide

/-- Code 0x1024, mask 0xFFFC, `addr[1:0]` 2. -/
theorem test_decode_wrRxPhase : decode ⟨0x1026#16, 0x80000001#32⟩ = .ok (.wrRxPhase 2#2 0x80000001#32) := by decide

/-- Code 0x1028, mask 0xFFFC, `addr[1:0]` 3. -/
theorem test_decode_wrRxOmega : decode ⟨0x102B#16, 0x80000001#32⟩ = .ok (.wrRxOmega 3#2 0x80000001#32) := by decide

/-- Code 0x102C, mask 0xFFFC, `addr[1:0]` 0. -/
theorem test_decode_wrRxMu : decode ⟨0x102C#16, 0x80000001#32⟩ = .ok (.wrRxMu 0#2 0x80000001#32) := by decide

/-- Code 0x1040, mask 0xFFFC, `addr[1:0]` 1. -/
theorem test_decode_wrCsInc : decode ⟨0x1041#16, 0x80000001#32⟩ = .ok (.wrCsInc 1#2 0x80000001#32) := by decide

/-- Code 0x1044, mask 0xFFFC, `addr[1:0]` 2. -/
theorem test_decode_wrCsDecim : decode ⟨0x1046#16, 0x80000001#32⟩ = .ok (.wrCsDecim 2#2 0x80000001#32) := by decide

/-- Code 0x1048, mask 0xFFFC, `addr[1:0]` 3. -/
theorem test_decode_wrCsNtaps : decode ⟨0x104B#16, 0x80000001#32⟩ = .ok (.wrCsNtaps 3#2 0x80000001#32) := by decide

/-- Code 0x1050, mask 0xFFFC, `addr[1:0]` 0. -/
theorem test_decode_wrFmdGain : decode ⟨0x1050#16, 0x80000001#32⟩ = .ok (.wrFmdGain 0#2 0x80000001#32) := by decide

/-- Code 0x1054, mask 0xFFFC, `addr[1:0]` 1. -/
theorem test_decode_wrFmdDecim : decode ⟨0x1055#16, 0x80000001#32⟩ = .ok (.wrFmdDecim 1#2 0x80000001#32) := by decide

/-- Code 0x1058, mask 0xFFFC, `addr[1:0]` 2. -/
theorem test_decode_wrFmdNtaps : decode ⟨0x105A#16, 0x80000001#32⟩ = .ok (.wrFmdNtaps 2#2 0x80000001#32) := by decide

/-- Code 0x105C, mask 0xFFFC, `addr[1:0]` 3. -/
theorem test_decode_wrFmdAlpha : decode ⟨0x105F#16, 0x80000001#32⟩ = .ok (.wrFmdAlpha 3#2 0x80000001#32) := by decide

/-- Code 0x1060, mask 0xFFFC, `addr[1:0]` 0. -/
theorem test_decode_wrTmInc : decode ⟨0x1060#16, 0x80000001#32⟩ = .ok (.wrTmInc 0#2 0x80000001#32) := by decide

/-- Code 0x1064, mask 0xFFFC, `addr[1:0]` 1. -/
theorem test_decode_wrTmDecim : decode ⟨0x1065#16, 0x80000001#32⟩ = .ok (.wrTmDecim 1#2 0x80000001#32) := by decide

/-- Code 0x1068, mask 0xFFFC, `addr[1:0]` 2. -/
theorem test_decode_wrTmNtaps : decode ⟨0x106A#16, 0x80000001#32⟩ = .ok (.wrTmNtaps 2#2 0x80000001#32) := by decide

/-- Code 0x1070, mask 0xFFFC, `addr[1:0]` 3. -/
theorem test_decode_wrRxOmegaMid : decode ⟨0x1073#16, 0x80000001#32⟩ = .ok (.wrRxOmegaMid 3#2 0x80000001#32) := by decide

/-- Code 0x1074, mask 0xFFFC, `addr[1:0]` 0. -/
theorem test_decode_wrRxOmegaRel : decode ⟨0x1074#16, 0x80000001#32⟩ = .ok (.wrRxOmegaRel 0#2 0x80000001#32) := by decide

/-- Code 0x1078, mask 0xFFFC, `addr[1:0]` 1. -/
theorem test_decode_wrRxGainMu : decode ⟨0x1079#16, 0x80000001#32⟩ = .ok (.wrRxGainMu 1#2 0x80000001#32) := by decide

/-- Code 0x107C, mask 0xFFFC, `addr[1:0]` 2. -/
theorem test_decode_wrRxGainOmega : decode ⟨0x107E#16, 0x80000001#32⟩ = .ok (.wrRxGainOmega 2#2 0x80000001#32) := by decide

/-- Code 0x1080, mask 0xFFFC, `addr[1:0]` 3. -/
theorem test_decode_wrRxAlpha : decode ⟨0x1083#16, 0x80000001#32⟩ = .ok (.wrRxAlpha 3#2 0x80000001#32) := by decide

/-- Code 0x1084, mask 0xFFFC, `addr[1:0]` 0. -/
theorem test_decode_wrRxBeta : decode ⟨0x1084#16, 0x80000001#32⟩ = .ok (.wrRxBeta 0#2 0x80000001#32) := by decide

/-- Code 0x1088, mask 0xFFFC, `addr[1:0]` 1. -/
theorem test_decode_wrRxFmin : decode ⟨0x1089#16, 0x80000001#32⟩ = .ok (.wrRxFmin 1#2 0x80000001#32) := by decide

/-- Code 0x108C, mask 0xFFFC, `addr[1:0]` 2. -/
theorem test_decode_wrRxFmax : decode ⟨0x108E#16, 0x80000001#32⟩ = .ok (.wrRxFmax 2#2 0x80000001#32) := by decide

/-- Code 0x1090, mask 0xFFFC, `addr[1:0]` 3. -/
theorem test_decode_wrDdSkip : decode ⟨0x1093#16, 0x80000001#32⟩ = .ok (.wrDdSkip 3#2 0x80000001#32) := by decide

/-- Code 0x1100, mask 0xFFFC, `addr[1:0]` 0. -/
theorem test_decode_wrTapAddr : decode ⟨0x1100#16, 0x80000001#32⟩ = .ok (.wrTapAddr 0#2 0x80000001#32) := by decide

/-- Code 0x1104, mask 0xFFFC, `addr[1:0]` 1. -/
theorem test_decode_wrTapData : decode ⟨0x1105#16, 0x80000001#32⟩ = .ok (.wrTapData 1#2 0x80000001#32) := by decide

/-- 0x0FFC is in no register row (vector B2). -/
theorem test_decode_rdUnmapped : decode ⟨0x0FFC#16, 0#32⟩ = .ok (.rdUnmapped 0xFFC#12) := by decide

/-- 0x030 is in no register row (vector B2). -/
theorem test_decode_wrUnmapped : decode ⟨0x1031#16, 7#32⟩ = .ok (.wrUnmapped 0x031#12 7#32) := by decide

/-- I in bits [7:0], Q in bits [15:8] (R106). -/
theorem test_decode_pushIq : decode ⟨0x2000#16, 0x64C8#32⟩ = .ok (.pushIq 200#8 100#8) := by decide

/-- Code 0x2001, mask 0xFFFF. -/
theorem test_decode_popAud : decode ⟨0x2001#16, 0#32⟩ = .ok .popAud := by decide

/-- The whole word is the element (R107). -/
theorem test_decode_pushAud : decode ⟨0x2002#16, 0xBF800000#32⟩ = .ok (.pushAud 0xBF800000#32) := by decide

/-- Code 0x2003, mask 0xFFFF. -/
theorem test_decode_popBit : decode ⟨0x2003#16, 0#32⟩ = .ok .popBit := by decide

/-- Code 0x3000, mask 0xFFFF. -/
theorem test_decode_fireMix0 : decode ⟨0x3000#16, 0#32⟩ = .ok .fireMix0 := by decide

/-- Code 0x3001, mask 0xFFFF. -/
theorem test_decode_fireFir0 : decode ⟨0x3001#16, 0#32⟩ = .ok .fireFir0 := by decide

/-- Code 0x3002, mask 0xFFFF. -/
theorem test_decode_fireQd : decode ⟨0x3002#16, 0#32⟩ = .ok .fireQd := by decide

/-- Code 0x3003, mask 0xFFFF. -/
theorem test_decode_fireFir1 : decode ⟨0x3003#16, 0#32⟩ = .ok .fireFir1 := by decide

/-- Code 0x3004, mask 0xFFFF. -/
theorem test_decode_fireDe : decode ⟨0x3004#16, 0#32⟩ = .ok .fireDe := by decide

/-- Code 0x3005, mask 0xFFFF. -/
theorem test_decode_fireMix1 : decode ⟨0x3005#16, 0#32⟩ = .ok .fireMix1 := by decide

/-- Code 0x3006, mask 0xFFFF. -/
theorem test_decode_fireFir2 : decode ⟨0x3006#16, 0#32⟩ = .ok .fireFir2 := by decide

/-- Code 0x3007, mask 0xFFFF. -/
theorem test_decode_fireRx : decode ⟨0x3007#16, 0#32⟩ = .ok .fireRx := by decide

/-- Code 0x3008, mask 0xFFFF. -/
theorem test_decode_fireDd : decode ⟨0x3008#16, 0#32⟩ = .ok .fireDd := by decide

/-- R105: reserved codes are refused by name. -/
theorem test_decode_reserved :
    decode ⟨0x4000#16, 0#32⟩ = .error .kind ∧ decode ⟨0xFFFF#16, 0#32⟩ = .error .kind ∧
    decode ⟨0x2004#16, 0#32⟩ = .error .port ∧ decode ⟨0x2FFF#16, 0#32⟩ = .error .port ∧
    decode ⟨0x3009#16, 0#32⟩ = .error .unit := by decide

/-- WellFormed smoke: an "unmapped" access to a register's address is no operation. -/
theorem test_illformed_unmapped :
    wellFormed (.rdUnmapped 0x047#12) = false ∧ wellFormed (.wrUnmapped 0x104#12 0#32) = false ∧
    wellFormed (.rdUnmapped 0x030#12) = true ∧ wellFormed (.wrUnmapped 0xFFF#12 0#32) = true := by decide

/-- The table's numbering: the code in the low 16 bits, the payload from bit 16 on. -/
theorem test_tableWord :
    decodeTableWord 16 0x0008 = some (.rdStatus 0#2) ∧ decodeTableWord 48 0x64C82000 = some (.pushIq 200#8 100#8) ∧
    decodeTableWord 16 0x2004 = none := by decide

/-! ### The bus (vectors B, section 3.1) -/

/-- B1. -/
theorem test_reset_reads :
    returnedBy (.rdId 0#2) State.reset = some (some (.bus 0x464D4443#32)) ∧
    returnedBy (.rdTmDecim 0#2) State.reset = some (some (.bus 4#32)) ∧
    returnedBy (.rdRxFmin 0#2) State.reset = some (some (.bus 0xBE800000#32)) ∧
    returnedBy (.rdStatus 0#2) State.reset = some (some (.bus 0#32)) := by decide

/-- B3: a CFG16 register keeps bits [15:0]. -/
theorem test_cfg16_write :
    (after (exec (.wrCsDecim 0#2 0xABCD1234#32) State.reset)).map (·.cfg.csDecim) = some 0x1234#16 := by decide

/-- R374: the same write in RUN does nothing. -/
theorem test_cfg_write_in_run :
    (after (exec (.wrCsDecim 0#2 0xABCD1234#32) running)).map (·.cfg.csDecim) = some 1#16 := by decide

/-- B7. -/
theorem test_irq_en_write :
    (after (exec (.wrIrqEn 0#2 0xFFFFFFFF#32) State.reset)).map (·.irqEn) = some 0xF#4 := by decide

/-- B8. -/
theorem test_tap_addr_read :
    returnedBy (.rdTapAddr 0#2) { State.reset with tapBank := 3#2, tapIndex := 0xFFFF#16 } =
      some (some (.bus 0x0003FFFF#32)) := by decide

/-- B8. -/
theorem test_tap_addr_write :
    (after (exec (.wrTapAddr 0#2 0xFFFFFFFF#32) State.reset)).map (fun s => (s.tapBank, s.tapIndex)) =
      some (3#2, 0xFFFF#16) := by decide

/-- B9: BANK 3 stores nothing, INDEX advances. -/
theorem test_tap_write_bank3 :
    (after (exec (.wrTapData 0#2 fone) { State.reset with tapBank := 3#2 })).map (fun s => (s.taps, s.tapIndex)) =
      some ([], 1#16) := by decide

/-- The example of R150. -/
theorem test_tap_write :
    (after (exec (.wrTapData 0#2 fone) State.reset)).map (fun s => (s.taps, s.tapIndex)) =
      some ([(0, fone)], 1#16) := by decide

/-- B10: BANK 3 reads 0, INDEX advances and wraps. -/
theorem test_tap_read_bank3 :
    (after (exec (.rdTapData 0#2) { State.reset with tapBank := 3#2, tapIndex := 0xFFFF#16 })).map
      (fun s => (s.ret, s.tapIndex)) = some (some (.bus 0#32), 0#16) := by decide

/-- As P3: a stored tap reads back. -/
theorem test_tap_read :
    (after (exec (.rdTapData 0#2) { State.reset with tapBank := 2#2, taps := [(0x20000, 0x3F000000#32)] })).map
      (fun s => (s.ret, s.tapIndex)) = some (some (.bus 0x3F000000#32), 1#16) := by decide

/-- B15. -/
theorem test_read_only_write : after (exec (.wrInCount 0#2 5#32) running) = some running := by decide

/-- B18: with both bits set a write of CTRL is SOFT_RESET only. -/
theorem test_ctrl_both_bits :
    after (exec (.wrCtrl 0#2 3#32) { running with ch := oneEach, fsat := true }) = some configured := by decide

/-- K33 and P1: the reset configuration fails with code 1. -/
theorem test_start_fails :
    (after (exec (.wrCtrl 0#2 1#32) State.reset)).map statusWord = some 0x12#32 := by decide

/-- K0. -/
theorem test_start_runs : (after (exec (.wrCtrl 0#2 1#32) configured)).map statusWord = some 1#32 := by decide

/-- P3: FSAT is cleared, FSAT_NOW is not. -/
theorem test_clear_flags :
    (after (exec (.wrStatus 0#2 0x700#32)
        { running with fsat := true, irqEn := 1#4, dp := { running.dp with rx := { running.dp.rx with fsatNow := true } } })).map
      statusWord = some 0x801#32 := by decide

/-- P3: RUN, IRQ, FSAT and FSAT_NOW. -/
theorem test_status_word :
    returnedBy (.rdStatus 0#2)
        { running with fsat := true, irqEn := 1#4, dp := { running.dp with rx := { running.dp.rx with fsatNow := true } } } =
      some (some (.bus 0x909#32)) := by decide

/-! ### The START check (vectors K, section 3.2; `NTAPS_MAX` is 64) -/

/-- K1 to K9. -/
theorem test_check_counts :
    checkConfig 64 { configV with csDecim := 0#16 } = 1#4 ∧ checkConfig 64 { configV with csNtaps := 0#16 } = 2#4 ∧
    checkConfig 64 { configV with csNtaps := 65#16 } = 2#4 ∧ checkConfig 64 { configV with csNtaps := 64#16 } = 0#4 ∧
    checkConfig 64 { configV with fmdDecim := 0#16 } = 3#4 ∧ checkConfig 64 { configV with fmdNtaps := 65#16 } = 4#4 ∧
    checkConfig 64 { configV with tmDecim := 0#16 } = 5#4 ∧ checkConfig 64 { configV with tmNtaps := 0#16 } = 6#4 := by
  decide

/-- K10 to K21. -/
theorem test_check_gains :
    checkConfig 64 { configV with fmdGain := qnan } = 7#4 ∧ checkConfig 64 { configV with rxFmax := 0x7F800000#32 } = 7#4 ∧
    checkConfig 64 { configV with csDecim := 0#16, fmdGain := qnan } = 1#4 ∧
    checkConfig 64 { configV with fmdGain := 0x80000000#32 } = 8#4 ∧ checkConfig 64 { configV with fmdAlpha := 0#32 } = 8#4 ∧
    checkConfig 64 { configV with fmdAlpha := 0x3F800001#32 } = 8#4 ∧
    checkConfig 64 { configV with rxOmegaRel := 0xBDCCCCCD#32 } = 9#4 ∧
    checkConfig 64 { configV with rxOmegaRel := 0x3F000001#32 } = 9#4 ∧
    checkConfig 64 { configV with rxBeta := 0x40000001#32 } = 10#4 ∧
    checkConfig 64 { configV with rxGainMu := 0x80000000#32 } = 0#4 := by decide

/-- K22 to K28: exact arithmetic. -/
theorem test_check_step :
    checkConfig 64 { configV with rxOmegaMid := 0x3FC00000#32 } = 0#4 ∧
    checkConfig 64 { configV with rxOmegaMid := 0x3FBFFFFF#32 } = 11#4 ∧
    checkConfig 64 { configV with rxOmegaMid := 0x49800000#32 } = 0#4 ∧
    checkConfig 64 { configV with rxOmegaMid := 0x49800001#32 } = 11#4 ∧
    checkConfig 64 { configV with rxOmegaRel := 0x3E800000#32 } = 0#4 ∧
    checkConfig 64 { configV with rxOmegaRel := 0x3E800000#32, rxGainMu := 0x33000000#32 } = 11#4 := by decide

/-- K29 to K32. -/
theorem test_check_bounds :
    checkConfig 64 { configV with rxFmin := 0x3E800000#32, rxFmax := 0xBE800000#32 } = 12#4 ∧
    checkConfig 64 { configV with rxFmin := 0xC0490FDC#32 } = 12#4 ∧
    checkConfig 64 { configV with rxFmin := 0xC0490FDB#32 } = 0#4 ∧
    checkConfig 64 { configV with rxFmax := 0x40490FDC#32 } = 12#4 := by decide

/-! ### The mixers (vectors M, section 3.3) -/

/-- M0b, with the reference `Num`. -/
theorem test_oscillator : oscillator numReference 0x10000000#32 = ⟨0x3F6C835E#32, 0x3EC3EF15#32⟩ := by decide +kernel

/-- M0c. -/
theorem test_conv :
    convByte 0#8 = 0xBF800000#32 ∧ convByte 1#8 = 0xBF7DFDFE#32 ∧ convByte 127#8 = 0xBB808081#32 ∧
    convByte 254#8 = 0x3F7DFDFE#32 := by decide

/-- M1, its second sample: at a quarter turn every `Num` is exact. -/
theorem test_fireMix0 :
    (after (exec .fireMix0 { runningWith { Channels.empty with iq := [0x00FF#16] } with
        cfg := { configV with csInc := 0x40000000#32 }
        dp := { running.dp with mix0Acc := 0x40000000#32 } })).map (fun s => (s.ch.iq, s.ch.mx0, s.dp.mix0Acc)) =
      some ([], [⟨0x3F800000#32, 0x3F800000#32⟩], 0x80000000#32) := by decide +kernel

/-- M4: infinity times zero in the imaginary lane is NaN. -/
theorem test_fireMix1 :
    (after (exec .fireMix1 (runningWith { Channels.empty with ain := [0x7F800000#32] }))).map (·.ch.mx1) =
      some [⟨0x7F800000#32, 0x7FC00000#32⟩] := by decide

/-- M5: signed zeros. -/
theorem test_cmul_zeros :
    cmul ⟨0x80000000#32, 0x80000000#32⟩ ⟨fone, 0#32⟩ = ⟨0#32, 0x80000000#32⟩ := by decide

/-! ### The filters (vectors F, section 3.4, with the reference `FIR_DOT`) -/

/-- The outputs of a one-lane filter with the reference inner product. -/
def firOutputs (taps : List F32) (d : Half) (xs : List F32) : List F32 :=
  (Spec.firRun 0#32 (BitVec.ofNat 16 taps.length) d ⟨[], 0#16, 0#16⟩ xs).2.map (firDotReference taps)

/-- F1. -/
theorem test_fir_f1 :
    firOutputs [0x3F000000#32, 0x3E800000#32] 2#16
      [0x3F800000#32, 0x40000000#32, 0x40400000#32, 0x40800000#32, 0x40A00000#32] = [0x3FA00000#32, 0x40300000#32] := by
  decide

/-- F3: a NaN affects exactly the windows that hold it. -/
theorem test_fir_f3 :
    firOutputs [0x3F000000#32, 0x3F000000#32] 1#16 [0x3F800000#32, qnan, 0x40000000#32, 0x40400000#32, 0x40800000#32] =
      [qnan, qnan, 0x40200000#32, 0x40600000#32] := by decide

/-- F7: `D > N` skips samples. -/
theorem test_fir_f7 :
    firOutputs [fone] 3#16 [0x3F800000#32, 0x40000000#32, 0x40400000#32, 0x40800000#32, 0x40A00000#32] =
      [0x3F800000#32, 0x40800000#32] := by decide

/-- F8. -/
theorem test_fir_f8 :
    firOutputs [0x3DCCCCCD#32, 0x3E4CCCCD#32, 0x3E99999A#32] 1#16 [fone, fone, fone, fone] =
      [0x3F19999A#32, 0x3F19999A#32] := by decide

/-- FIRE_FIR0 before its window is full: the sample is held and nothing is pushed (R201, BND). -/
theorem test_fireFir0 :
    (after (exec .fireFir0 { runningWith { oneEach with f0 := [] } with cfg := { configV with csNtaps := 4#16 } })).map
      (fun s => (s.ch.mx0, s.ch.f0.length, s.dp.fir0)) = some ([], 0, ⟨[⟨fone, 0#32⟩], 1#16, 0#16⟩) := by decide

/-- FIRE_FIR1 with one tap and decimation 2: an output is pushed and the phase advances. -/
theorem test_fireFir1 :
    (after (exec .fireFir1 { runningWith { oneEach with f1 := [] } with cfg := { configV with fmdDecim := 2#16 } })).map
      (fun s => (s.ch.qd, s.ch.f1.length, s.dp.fir1.ph)) = some ([], 1, 1#16) := by decide

/-- FIRE_FIR2 at phase 1 of 2: nothing is pushed and the phase returns to 0. -/
theorem test_fireFir2 :
    (after (exec .fireFir2 { runningWith { oneEach with f2 := [] } with
        cfg := { configV with tmDecim := 2#16 }
        dp := { running.dp with fir2 := ⟨[⟨fone, fone⟩], 1#16, 1#16⟩ } })).map
      (fun s => (s.ch.f2.length, s.dp.fir2)) = some (0, ⟨[⟨fone, 0#32⟩], 1#16, 0#16⟩) := by decide

/-! ### The discriminator and the de-emphasis (vectors Q and E, sections 3.5 and 3.6) -/

/-- Q1. -/
theorem test_qd_q1 :
    (Spec.qdRun numReference fone ⟨C32.zero, false⟩ [⟨fone, 0#32⟩, ⟨0#32, fone⟩]).2 = [0x3FC90FDB#32] := by decide

/-- Q2: a step of exactly π gives `+PI32` both times. -/
theorem test_qd_q2 :
    (Spec.qdRun numReference fone ⟨C32.zero, false⟩ [realC fone, realC fnegOne, realC fone]).2 =
      [0x40490FDB#32, 0x40490FDB#32] := by decide

/-- Q7, with the reference `Num`. -/
theorem test_qd_q7 :
    (Spec.qdRun numReference 0x3EA2F983#32 ⟨C32.zero, false⟩ [realC fone, ⟨0x3F3504F3#32, 0x3F3504F3#32⟩]).2 =
      [0x3E800000#32] := by decide +kernel

/-- A zero sample beside an infinite or NaN one gives a NaN, by R232's pseudocode and R9 (notes/assumptions/24); beside a
finite one `G · (+0)` (Q3). -/
theorem test_qd_zero_beside_infinity :
    (Spec.qdRun num fone ⟨C32.zero, false⟩ [C32.zero, realC 0x7F800000#32, C32.zero, realC qnan, C32.zero, realC fone]).2 =
      [qnan, qnan, qnan, qnan, 0#32] := by decide

/-- R234 at `ω0 = -π/2` and gain 2: every output is `2·(-HALFPI32)`, whatever `Num` is. -/
theorem test_qd_constant_envelope :
    (Spec.qdRun num 0x40000000#32 ⟨C32.zero, false⟩ ((Spec.quarterTurns ⟨fone, 0x40000000#32⟩ 4).map Spec.conjugate)).2 =
      [0xC0490FDB#32, 0xC0490FDB#32, 0xC0490FDB#32] := by decide

/-- FIRE_QD on its first sample: nothing is pushed and the sample is held (R232). -/
theorem test_fireQd :
    (after (exec .fireQd (runningWith { oneEach with qd := [] }))).map (fun s => (s.ch.f0, s.ch.qd, s.dp.qd)) =
      some ([], [], ⟨⟨0#32, fone⟩, true⟩) := by decide

/-- E2. -/
theorem test_de_e2 :
    deEmphasis 0x3EAE7803#32 0#32 fone = 0x3EAE7803#32 ∧ deEmphasis 0x3EAE7803#32 0x3EAE7803#32 fone = 0x3F10BE2C#32 ∧
    deEmphasis fone 0x3FC80EDA#32 0xBFCA10DB#32 = 0xBFCA10DA#32 := by decide

/-- E1, its second sample. -/
theorem test_fireDe :
    (after (exec .fireDe { runningWith oneEach with
        cfg := { configV with fmdAlpha := 0x3F000000#32 }, dp := { running.dp with deY := 0x3F000000#32 } })).map
      (fun s => (s.ch.f1, s.ch.aout, s.dp.deY, s.cnt.audCount)) = some ([], [0x3F400000#32], 0x3F400000#32, 1#32) := by
  decide

/-! ### The reference AGC (vectors A, section 3.7) -/

/-- A1 to A5, as one run of the reference AGC from its start; the NaN of A4 keeps the gain. -/
theorem test_agc_run :
    agcOutputs referenceAgc [0x40000000#32, 0x3F000000#32, 0xC0400000#32, qnan, 0x3E800000#32] =
      [0x3F800000#32, 0x3EFFF972#32, 0xBF800000#32, qnan, 0x3E7FEF9E#32] := by decide

/-- AGCAUD after A1 carries the gain on; LOOPAUD pushes the value it popped (R114). -/
theorem test_agcaud :
    pseudoAgcaud fone 0x40000000#32 = ((0x3F7FF972#32 : F32), [.pushAud fone]) ∧
    pseudoLoopaud 0x40000000#32 = [.pushAud 0x40000000#32] := by decide

/-- R291 at `mu = +0`, by its formula: a `-0` lane of `xp` becomes `+0` beside a positive lane of `xc` and stays `-0` beside
a negative one (notes/assumptions/19). -/
theorem test_interpolate_zeros :
    interpolate 0#32 ⟨0x80000000#32, 0x80000000#32⟩ ⟨fone, fnegOne⟩ = ⟨0#32, 0x80000000#32⟩ := by decide

/-- With a gain of 0 an infinite sample gives a NaN (R240's pseudocode and R9, notes/assumptions/21). -/
theorem test_agc_gain_zero : (agcStep 0#32 0x7F800000#32).2 = qnan := by decide

/-- A1 to A5, step by step. -/
theorem test_agc :
    agcStep fone 0x40000000#32 = (0x3F7FF972#32, 0x3F800000#32) ∧
    agcStep 0x3F7FF972#32 0x3F000000#32 = (0x3F7FFCB9#32, 0x3EFFF972#32) ∧
    agcStep 0x3F7FFCB9#32 0xC0400000#32 = (0x3F7FEF9E#32, 0xBF800000#32) ∧
    agcStep 0x3F7FEF9E#32 qnan = (0x3F7FEF9E#32, qnan) ∧
    agcStep 0x3F7FEF9E#32 0x3E800000#32 = (0x3F7FF488#32, 0x3E7FEF9E#32) := by decide

/-! ### The receiver (vectors X, section 3.8) -/

/-- RX at a symbol instant in V, holding `xc`, with this much of a previous symbol. -/
def atSymbol (xc : C32) : Rx := { (startDatapath configV).rx with wait := 0#32, xc := xc }

/-- X1, n = 1: the first symbol is `x[0]`. -/
theorem test_rx_x1 :
    let o := rxAccept numReference configV (atSymbol ⟨fone, 0#32⟩) ⟨fone, 0#32⟩
    (o.symbol, o.rx.phi, o.rx.f, o.rx.omega, o.rx.mu, o.rx.wait) =
      (some ⟨fone, 0#32⟩, 0#32, 0#32, 0x40000000#32, 0#32, 1#32) := by decide +kernel

/-- X3, n = 1: the proportional term. -/
theorem test_rx_x3 :
    (rxAccept numReference { configV with rxAlpha := 0x3F000000#32 } (atSymbol ⟨0#32, fone⟩) ⟨0#32, fone⟩).rx.phi =
      0xBF490FDB#32 := by decide +kernel

/-- X4: FSAT. -/
theorem test_rx_x4 :
    let o := rxAccept numReference { configV with rxBeta := fone, rxFmin := 0#32, rxFmax := 0#32 } (atSymbol ⟨fone, fone⟩)
      ⟨fone, fone⟩
    (o.fsat, o.rx.fsatNow, o.rx.f, o.rx.phi) = (true, true, 0#32, 0#32) := by decide +kernel

/-- X5, n = 3: OSAT. -/
theorem test_rx_x5 :
    let o := rxAccept numReference { configV with rxGainOmega := fone }
      { atSymbol ⟨0x3F000000#32, 0#32⟩ with zp := ⟨fone, 0#32⟩, cp := fone, havePrev := true } ⟨0x41100000#32, 0#32⟩
    (o.symbol, o.osat, o.rx.omega) = (some ⟨0x3F000000#32, 0#32⟩, true, 0x40000000#32) := by decide +kernel

/-- X6, n = 5: interpolation at mu = 0.125. -/
theorem test_rx_x6 :
    let o := rxAccept numReference { configV with rxGainMu := 0x3E800000#32 }
      { atSymbol ⟨0x3E800000#32, 0#32⟩ with
        mu := 0x3E000000#32, zp := ⟨0xBF000000#32, 0#32⟩, cp := fnegOne, havePrev := true } ⟨0x40400000#32, 0#32⟩
    (o.symbol, o.rx.mu, o.rx.wait) = (some ⟨0x3F180000#32, 0#32⟩, 0x3DD00000#32, 1#32) := by decide +kernel

/-- X7, n = 1: both errors of a NaN symbol are sanitised. -/
theorem test_rx_x7 :
    let o := rxAccept numReference configV (atSymbol ⟨qnan, 0#32⟩) ⟨fone, 0#32⟩
    (o.symbol, o.nans, o.rx.phi, o.rx.cp) = (some ⟨qnan, qnan⟩, true, 0#32, fnegOne) := by decide

/-- X8, n = 1 and n = 2: the phase wraps. -/
theorem test_rx_x8 :
    let g := { configV with rxAlpha := 0x40000000#32, rxBeta := 0x40000000#32, rxFmin := fneg pi32, rxFmax := pi32 }
    let o := rxAccept numReference g (atSymbol ⟨0#32, fone⟩) ⟨0#32, fone⟩
    (o.rx.phi, o.rx.f, o.fsat) = (0#32, fneg pi32, false) ∧
      (rxAccept numReference g o.rx ⟨0#32, fone⟩).rx.phi = fneg pi32 := by decide +kernel

/-- R266 against R315 (notes/assumptions/23): with RX_FMIN = 0 and RX_FMAX = 0.25, conjugating the symbol takes the frequency
from the upper bound to the lower one and not to the negation. -/
theorem test_rx_asymmetric_bounds :
    let g := { configV with rxBeta := fone, rxFmin := 0#32, rxFmax := 0x3E800000#32 }
    (rxAccept numReference g (atSymbol ⟨0#32, fnegOne⟩) C32.zero).rx.f = 0x3E800000#32 ∧
    (rxAccept numReference g (atSymbol ⟨0#32, fone⟩) C32.zero).rx.f = 0#32 := by decide +kernel

/-- X1, n = 0: RX waits a sample. -/
theorem test_fireRx :
    (after (exec .fireRx (runningWith { oneEach with rx := [] }))).map
      (fun s => (s.ch.f2, s.ch.rx, s.dp.rx.wait, s.dp.rx.xc, s.cnt.symCount)) =
      some ([], [], 0#32, ⟨fone, 0#32⟩, 0#32) := by decide

/-! ### The decoder (vectors D, section 3.9) -/

/-- D1 and D2. -/
theorem test_dd_d1 :
    let zs := [realC fone, realC fnegOne, realC fnegOne, ⟨0x3F000000#32, 0x3F000000#32⟩]
    (Spec.ddRun ⟨C32.zero, false, 0#16⟩ zs).2 = [0#8, 1#8, 0#8] ∧ (Spec.ddRun ⟨C32.zero, false, 1#16⟩ zs).2 = [1#8, 0#8] := by
  decide

/-- D5 and D7: NaN, infinities, an underflowing product. -/
theorem test_dd_d5 :
    (Spec.ddRun ⟨C32.zero, false, 0#16⟩
      [realC fone, realC qnan, realC fone, realC 0x7F800000#32, realC fnegOne]).2 = [0#8, 0#8, 1#8, 0#8] ∧
    (Spec.ddRun ⟨C32.zero, false, 0#16⟩ [realC 0x0DA24260#32, realC 0x0DA24260#32]).2 = [0#8] := by decide

/-- FIRE_DD with a previous symbol of the same sign: bit 1, counted. -/
theorem test_fireDd :
    (after (exec .fireDd { runningWith oneEach with dp := { running.dp with dd := ⟨⟨fone, 0#32⟩, true, 0#16⟩ } })).map
      (fun s => (s.ch.rx, s.ch.bit, s.cnt.bitCount)) = some ([], [1#8], 1#32) := by decide

/-! ### Beats and steps -/

/-- The example of R153. -/
theorem test_pushIq :
    (after (exec (.pushIq 255#8 0#8) running)).map (fun s => (s.ch.iq, s.cnt.inCount)) = some ([0x00FF#16], 1#32) := by
  decide

/-- The example of R155. -/
theorem test_popAud :
    (after (exec .popAud (runningWith { Channels.empty with aout := [0x3F000000#32, fone] }))).map
      (fun s => (s.ret, s.ch.aout)) = some (some (.aud 0x3F000000#32), [fone]) := by decide

/-- The example of R156. -/
theorem test_pushAud : (after (exec (.pushAud fone) running)).map (·.ch.ain) = some [fone] := by decide

/-- The example of R157. -/
theorem test_popBit :
    (after (exec .popBit (runningWith { Channels.empty with bit := [1#8] }))).map (fun s => (s.ret, s.ch.bit)) =
      some (some (.bit 1#8), []) := by decide

/-- The first step after reset runs the scheduled word. -/
theorem test_step_runs_word :
    (after (step (State.reset.withFetchWord 16 0x0064))).map (fun s => (s.ret, s.pending)) =
      some (some (.bus 4#32), []) := by decide

/-- A reserved code is refused (R105). -/
theorem test_step_refuses :
    (match step (State.reset.withFetchWord 16 0x3009) with
      | .refused r => decide (r = .reservedCode .unit)
      | _ => false) = true := by decide

/-- A beat whose port is not ready has no step (R153). -/
theorem test_step_stuck :
    (match step (State.reset.withFetchWord 48 0x00FF2000) with
      | .fault f => decide (f = .noStep)
      | _ => false) = true := by decide

/-! ### Witnesses: the hypotheses of every obligation that has some are met together -/

/-- A next state is there. -/
theorem next_of_after {r : Result} (h : (after r).isSome = true) : ∃ t, r = .next t := by
  cases r with
  | next t => exact ⟨t, rfl⟩
  | fault _ => simp [after] at h
  | refused _ => simp [after] at h

/-- `ch_iq` and `ch_ain` full, whatever `FIFO_DEPTH` is. -/
def fullInputs : State :=
  runningWith { Channels.empty with
    iq := List.replicate Config.fifoDepth 0#16, ain := List.replicate Config.fifoDepth 0#32 }

/-- A running core with a tap, one input sample and a beat scheduled. -/
def busyRunning : State :=
  { runningWith { Channels.empty with iq := [0x00FF#16] } with
    taps := [(0, fone)], pending := [.txn ⟨0x2002#16, fone⟩] }

/-- UnmappedReadsReturnZero, ReadOnlyAndUnmappedWritesDoNothing: the first gap of the map and its last address. -/
theorem witness_unmapped : isMapped 0x030#12 = false ∧ isMapped 0xFFF#12 = false := by decide

/-- ConfigurationWritesStoreUnlessRunning: both clauses. -/
theorem witness_configurationWrites : running.mode = .run ∧ configured.mode ≠ .run := by decide

/-- SoftResetClearsStreamKeepsConfiguration. -/
theorem witness_softReset : (2#32).getLsbD 1 = true ∧ (3#32).getLsbD 1 = true := by decide

/-- CtrlWriteWithoutCommandDoesNothing: no bit set, and START in RUN. -/
theorem witness_ctrlWithoutCommand :
    ((0#32).getLsbD 1 = false ∧ ((0#32).getLsbD 0 = true → configured.mode = .run)) ∧
    ((1#32).getLsbD 1 = false ∧ ((1#32).getLsbD 0 = true → running.mode = .run)) := by decide

/-- StartChecksThenRunsOrFails: a check that fails (with ERR_EN set) and one that passes. -/
theorem witness_start :
    ((1#32).getLsbD 1 = false ∧ (1#32).getLsbD 0 = true) ∧
    (State.reset.mode ≠ .run ∧ checkConfig Config.ntapsMax { State.reset with irqEn := 8#4 }.cfg ≠ 0#4) ∧
    (configured.mode ≠ .run ∧ checkConfig Config.ntapsMax configured.cfg = 0#4) := by decide

/-- TapDataWriteStoresOneTapAndAdvances: in RUN, and outside it with taps in canonical form. -/
theorem witness_tapDataWrite :
    running.mode = .run ∧ configured.mode ≠ .run ∧ Memory.wf { configured with taps := [(0, fone)] }.taps := by decide

/-- HardResetStepRestoresReset. -/
theorem witness_hardReset : { busyRunning with pending := [.hardReset] }.pending = .hardReset :: [] := by decide

/-- PushIqEnqueuesWhenReady, PushAudEnqueuesWhenReady: ready, not in RUN, and full. -/
theorem witness_pushes :
    (running.mode = .run ∧ running.ch.iq.length < Config.fifoDepth ∧ running.ch.ain.length < Config.fifoDepth) ∧
    State.reset.mode ≠ .run ∧
    (Config.fifoDepth ≤ fullInputs.ch.iq.length ∧ Config.fifoDepth ≤ fullInputs.ch.ain.length) := by
  refine ⟨by decide, by decide, ?_, ?_⟩ <;> simp [fullInputs, runningWith]

/-- PopAudTakesTheOldestSample, PopBitTakesTheOldestBit: something to take, and nothing. -/
theorem witness_pops :
    (runningWith { Channels.empty with aout := [fone], bit := [1#8] }).ch.aout = fone :: [] ∧
    (runningWith { Channels.empty with aout := [fone], bit := [1#8] }).ch.bit = 1#8 :: [] ∧
    State.reset.ch.aout = [] ∧ State.reset.ch.bit = [] := by decide

/-- FireMix0ConvertsAndMixes. -/
theorem witness_fireMix0 :
    (runningWith { oneEach with mx0 := [] }).ch.iq = 0x00FF#16 :: [] ∧
    Spec.CanFire (runningWith { oneEach with mx0 := [] }) 1 0 := ⟨by decide, by decide, by decide, by decide⟩

/-- FireMix1MixesRealSample. -/
theorem witness_fireMix1 :
    (runningWith { oneEach with mx1 := [] }).ch.ain = fone :: [] ∧
    Spec.CanFire (runningWith { oneEach with mx1 := [] }) 1 0 := ⟨by decide, by decide, by decide, by decide⟩

/-- FirFiringsShiftAndEmitWhenDue: each of the three. -/
theorem witness_fireFir :
    let s := runningWith { oneEach with f0 := [], f1 := [], f2 := [] }
    (s.ch.mx0 = ⟨fone, 0#32⟩ :: [] ∧ Spec.CanFire s s.ch.mx0.length s.ch.f0.length) ∧
    (s.ch.qd = fone :: [] ∧ Spec.CanFire s s.ch.qd.length s.ch.f1.length) ∧
    (s.ch.mx1 = ⟨fone, 0#32⟩ :: [] ∧ Spec.CanFire s s.ch.mx1.length s.ch.f2.length) :=
  ⟨⟨by decide, by decide, by decide, by decide⟩, ⟨by decide, by decide, by decide, by decide⟩,
    ⟨by decide, by decide, by decide, by decide⟩⟩

/-- FireQdPushesScaledAngle. -/
theorem witness_fireQd :
    let s := runningWith { oneEach with qd := [] }
    s.ch.f0 = ⟨0#32, fone⟩ :: [] ∧ Spec.CanFire s s.ch.f0.length s.ch.qd.length :=
  ⟨by decide, by decide, by decide, by decide⟩

/-- FireDeStepsTheFilter. -/
theorem witness_fireDe :
    (runningWith oneEach).ch.f1 = fone :: [] ∧
    Spec.CanFire (runningWith oneEach) (runningWith oneEach).ch.f1.length (runningWith oneEach).ch.aout.length :=
  ⟨by decide, by decide, by decide, by decide⟩

/-- FireRxFollowsThePseudocode: waiting, and at a symbol instant. -/
theorem witness_fireRx :
    let s := runningWith { oneEach with rx := [] }
    let u := { s with dp := { s.dp with rx := { s.dp.rx with wait := 0#32 } } }
    (s.ch.f2 = ⟨fone, 0#32⟩ :: [] ∧ Spec.CanFire s s.ch.f2.length s.ch.rx.length ∧ s.dp.rx.wait ≠ 0#32) ∧
    (u.ch.f2 = ⟨fone, 0#32⟩ :: [] ∧ Spec.CanFire u u.ch.f2.length u.ch.rx.length ∧ u.dp.rx.wait = 0#32) :=
  ⟨⟨by decide, ⟨by decide, by decide, by decide⟩, by decide⟩, by decide, ⟨by decide, by decide, by decide⟩, by decide⟩

/-- `runningWith oneEach` with this DD state. -/
def ddState (u : Dd) : State := { runningWith oneEach with dp := { running.dp with dd := u } }

/-- FireDdDecidesOneBit: its three clauses. -/
theorem witness_fireDd :
    (∀ u, (ddState u).ch.rx = ⟨fone, 0#32⟩ :: [] ∧
      Spec.CanFire (ddState u) (ddState u).ch.rx.length (ddState u).ch.bit.length) ∧
    ((ddState ⟨C32.zero, true, 0#16⟩).dp.dd.havePrev = true ∧ (ddState ⟨C32.zero, true, 0#16⟩).dp.dd.skipLeft = 0#16) ∧
    ((ddState ⟨C32.zero, true, 1#16⟩).dp.dd.havePrev = true ∧ (ddState ⟨C32.zero, true, 1#16⟩).dp.dd.skipLeft ≠ 0#16) ∧
    (ddState ⟨C32.zero, false, 0#16⟩).dp.dd.havePrev = false :=
  ⟨fun _ => ⟨rfl, rfl, Nat.one_pos, Nat.succ_pos _⟩, by decide, by decide, by decide⟩

/-- The firing statements' "not enabled" clauses and NotReadyStepsLeaveTheMoveToTheCore: nothing can fire at reset. -/
theorem witness_cannotFire (a b : Nat) : ¬ Spec.CanFire State.reset a b := fun h => by cases h.1

/-- The same clauses where the machine moves: FIR0 has nothing to take, and MIX0 fires meanwhile. -/
theorem witness_waitsWhileTheCoreMoves :
    ¬ Spec.CanFire busyRunning busyRunning.ch.mx0.length busyRunning.ch.f0.length ∧
    ∃ t, exec .fireFir0 busyRunning = .next t := by
  refine ⟨fun h => ?_, next_of_after (by decide)⟩
  have h1 := h.2.1
  revert h1
  decide

/-- DRAIN ends on P1's idle STATUS and goes on while BUSY is 1 (R114). -/
theorem test_drained : drained 0x00000001#32 = true ∧ drained 0x00000005#32 = false := by decide

/-- R377: with audio left in AUD_OUT the stream is not finished, though BUSY is 0. -/
theorem test_streamFinished :
    streamFinished running = true ∧ streamFinished (runningWith { Channels.empty with aout := [fone] }) = false ∧
    drained (statusWord (runningWith { Channels.empty with aout := [fone] })) = true := by decide

/-- StickyFlagsFallOnlyByClearing: by a START that passes, too. -/
theorem witness_flagFallsByStart :
    (after (exec (.wrCtrl 0#2 1#32) { configured with fsat := true })).map (fun t => (t.fsat, t.mode)) =
      some (false, Mode.run) := by decide

/-- CoreMoveIsOneEnabledFiring: nothing enabled, and something. -/
theorem witness_coreMove : (∀ u, enabled u State.reset = false) ∧ ∃ u, enabled u busyRunning = true :=
  ⟨fun u => by cases u <;> decide, .mix0, by decide⟩

/-- CoreMoveIsOneEnabledFiring: a unit whose firing R78 enables. -/
theorem witness_fireable : Spec.Fireable .mix0 busyRunning := ⟨by decide, by decide, by decide⟩

/-- StepRunsTheDecodedOperation. -/
theorem witness_step :
    busyRunning.pending = .txn ⟨0x2002#16, fone⟩ :: [] ∧ decode ⟨0x2002#16, fone⟩ = .ok (.pushAud fone) := by decide

/-- ReservedCodesAreRefused: the boundaries of the three spaces, on both sides. -/
theorem witness_reserved :
    (4 ≤ (0x4000#16).toNat / 2 ^ 12) ∧ ((0x2004#16).toNat / 2 ^ 12 = 2 ∧ 4 ≤ (0x2004#16).toNat % 2 ^ 12) ∧
    ((0x3009#16).toNat / 2 ^ 12 = 3 ∧ 9 ≤ (0x3009#16).toNat % 2 ^ 12) ∧
    decode ⟨0x2003#16, 0#32⟩ = .ok .popBit ∧ decode ⟨0x3008#16, 0#32⟩ = .ok .fireDd := by decide

/-- DecodeOfEncodeIsTheOperation: an operation whose well-formedness is a condition. -/
theorem witness_wellFormed : wellFormed (.wrUnmapped 0x094#12 1#32) = true := by decide

/-- DecodedOperationsAreWellFormedAndKeepTheCode. -/
theorem witness_decoded : decode ⟨0x0094#16, 0#32⟩ = .ok (.rdUnmapped 0x094#12) := by decide

/-- EveryStepKeepsTheInvariant: a running state that meets it and moves. -/
theorem witness_inv : Inv busyRunning ∧ busyRunning.mode = .run ∧ ∃ t, step busyRunning = .next t := by
  refine ⟨⟨by decide, ?_, ?_, by decide, by decide, fun _ => by decide, by decide, fun _ => ⟨by decide, by decide, by decide⟩,
    fun _ => ⟨by decide, by decide, by decide⟩, fun _ => ⟨by decide, by decide, by decide⟩, by decide⟩, by decide,
    next_of_after (by decide)⟩
  · intro c hc
    have : c = (0, fone) := by simpa [busyRunning] using hc
    subst this
    exact ⟨0, 0, by decide, ntapsMax_pos, by decide⟩
  · intro n hn
    have : n ≤ 1 := by
      revert n
      decide
    exact Nat.le_trans this (Nat.succ_le_succ (Nat.zero_le _))

/-- `busyRunning` after a symbol, with the frequency on its lower bound. -/
def afterSymbol : State :=
  { busyRunning with
    dp := { busyRunning.dp with
      rx := { busyRunning.dp.rx with f := 0xBE800000#32, phi := 0x40490FDB#32, havePrev := true, wait := 0x200000#32 } } }

/-- EveryStepKeepsTheCarrierBounded: before a symbol, and after one at the bounds. -/
theorem witness_carrier :
    (CarrierBounded busyRunning ∧ ∃ t, step busyRunning = .next t) ∧
    (CarrierBounded afterSymbol ∧ ∃ t, step afterSymbol = .next t) := by
  refine ⟨⟨⟨fun _ => by decide, fun _ => ⟨by decide, by decide⟩, fun _ => rfl⟩, next_of_after (by decide)⟩,
    ⟨fun _ => by decide, fun _ => ⟨by decide, by decide⟩, fun _ => ⟨by decide, by decide⟩⟩, next_of_after (by decide)⟩

/-- EveryStepKeepsTheTimingBounded: `wait` on its bound. -/
theorem witness_timing : TimingBounded afterSymbol ∧ ∃ t, step afterSymbol = .next t :=
  ⟨⟨fun _ => by decide, fun _ => ⟨by decide, by decide⟩, fun _ => ⟨by decide, by decide⟩, fun _ => by decide⟩,
    next_of_after (by decide)⟩

/-- EnabledFiringsCommute: a unit of each half, and two of one half. -/
theorem witness_commute :
    let s := runningWith { Channels.empty with iq := [0#16], f0 := [C32.zero], rx := [C32.zero] }
    (UnitId.mix0 ≠ .dd ∧ enabled .mix0 s = true ∧ enabled .dd s = true) ∧ UnitId.mix0 ≠ .qd ∧ enabled .qd s = true := by
  decide

/-- UnscheduledCoreComesToRest, with work to do. -/
theorem witness_unscheduled :
    { busyRunning with pending := [] }.pending = [] ∧ 0 < work { busyRunning with pending := [] } := by decide

/-- BusyCoreWithRoomCanMove. -/
theorem witness_busy :
    busyRunning.mode = .run ∧ Spec.anyBusy busyRunning.ch = true ∧ busyRunning.ch.aout.length < Config.fifoDepth ∧
    busyRunning.ch.bit.length < Config.fifoDepth := by decide

/-- NothingEnabledWithoutBusy. -/
theorem witness_notBusy : busy running = false := by decide

/-- ConfigurationIsFrozenInRun: a configuration write in RUN, which answers. -/
theorem witness_frozen : running.mode = .run ∧ ∃ t, exec (.wrCsInc 0#2 5#32) running = .next t :=
  ⟨by decide, next_of_after (by decide)⟩

/-- StateChangesOnlyByCommand: a START that passes. -/
theorem witness_stateChange : ∃ t, exec (.wrCtrl 0#2 1#32) configured = .next t ∧ t.mode ≠ configured.mode := by
  have h : (after (exec (.wrCtrl 0#2 1#32) configured)).map (·.mode) = some .run := by decide
  obtain ⟨t, ht⟩ : ∃ t, exec (.wrCtrl 0#2 1#32) configured = .next t := next_of_after (by decide)
  rw [ht] at h
  have hm : t.mode = .run := by simpa [after] using h
  exact ⟨t, ht, by rw [hm]; decide⟩

/-- StickyFlagsFallOnlyByClearing: FSAT falls. -/
theorem witness_flagFalls :
    ∃ t, exec (.wrStatus 0#2 0x100#32) { running with fsat := true } = .next t ∧
      (({ running with fsat := true } : State).fsat = true ∧ t.fsat = false) := ⟨_, rfl, by decide, by decide⟩

/-- FmHalfIgnoresTheToneHalf: two states that differ in the tone half. -/
theorem witness_halves :
    UnitId.mix0 ∈ Spec.fmUnits ∧ Spec.fmHalf busyRunning = Spec.fmHalf { busyRunning with fsat := true } ∧
    busyRunning.fsat ≠ true := ⟨by decide, rfl, by decide⟩

/-- OscillatorAccumulatesExactly: as many firings as samples. -/
theorem witness_oscillator : 1 ≤ (runningWith oneEach).ch.iq.length ∧ 1 ≤ (runningWith oneEach).ch.ain.length := by decide

/-- FirOutputCountFollowsRateLaw, FirOutputsAreTheDecimatedWindows: the smallest filter, and a stream of one window. -/
theorem witness_fir :
    (1#16 ≠ 0#16 ∧ (1#16).toNat ≤ [fone].length) ∧ (2#16 ≠ 0#16 ∧ (2#16).toNat ≤ [fone, fone].length) := by decide

/-- QdGivesOneOutputLess: a sample on an axis and one off it. -/
theorem witness_qdRun :
    (ffinite (fmul fone 0#32) = true ∧ fzero (fadd (fmul fone fone) (fmul 0#32 0#32)) = false) ∧
    ffinite (fmul fone 0x40000000#32) = true ∧
    fzero (fadd (fmul fone fone) (fmul 0x40000000#32 0x40000000#32)) = false := by decide

/-- AngleIsAPrincipalValue: a sample on the branch cut. -/
theorem witness_angle : fnan fnegOne = false ∧ fnan 0x80000000#32 = false := by decide

/-- NextSymbolComesAfterTheWait: `wait` 0 and 1. -/
theorem witness_wait :
    ([] : List C32).length = (atSymbol C32.zero).wait.toNat ∧ [C32.zero].length = running.dp.rx.wait.toNat := by decide

/-- PhaseErrorIgnoresNegation. -/
theorem witness_phaseError : fnan (realC fone).re = false ∧ fzero (realC fone).re = false := by decide

/-- WrapLandsWithinHalfATurn: the bounds themselves, just beyond them, and the two ends. -/
theorem witness_wrap :
    (Between (fneg pi32) pi32 pi32 ∧ Between (fneg pi32) (fneg pi32) pi32) ∧
    (Between (fneg 0x41490FDB#32) 0x40490FDC#32 0x41490FDB#32 ∧ fgt 0x40490FDC#32 pi32 = true) ∧
    (Between (fneg 0x41490FDB#32) 0xC0490FDC#32 0x41490FDB#32 ∧ flt 0xC0490FDC#32 (fneg pi32) = true) ∧
    Between (fneg 0x41490FDB#32) 0x41490FDB#32 0x41490FDB#32 ∧
    Between (fneg 0x41490FDB#32) (fneg 0x41490FDB#32) 0x41490FDB#32 := by
  refine ⟨⟨⟨?_, ?_⟩, ?_, ?_⟩, ⟨⟨?_, ?_⟩, ?_⟩, ⟨⟨?_, ?_⟩, ?_⟩, ⟨?_, ?_⟩, ?_, ?_⟩ <;> decide

/-- RoundingIsToNearestTiesToEven: a tie, and another pattern equally near. -/
theorem witness_rounding :
    0 < 2 ∧ roundMag 3 2 < 0x7F800000 ∧ 1 < 0x7F800000 ∧ roundMag 3 2 = 2 ∧
    |((3 : Nat) : Int) - (magUnits 2 * 2 : Nat)| = |((3 : Nat) : Int) - (magUnits 1 * 2 : Nat)| := by decide

/-- AdditionRoundsTheExactSum: an exact sum of 0, another, and the infinity and NaN clauses. -/
theorem witness_addition :
    (ffinite fone = true ∧ ffinite fnegOne = true ∧ fval fone + fval fnegOne = 0) ∧ fval fone + fval fone ≠ 0 ∧
    fnan 0x7F800001#32 = true ∧ (finf 0x7F800000#32 = true ∧ finf 0xFF800000#32 = true) ∧
    fsign 0x7F800000#32 ≠ fsign 0xFF800000#32 := by decide

/-- MultiplicationRoundsTheExactProduct: finite, infinite and NaN operands. -/
theorem witness_multiplication :
    ffinite 0x7F7FFFFF#32 = true ∧ fnan 0xFFFFFFFF#32 = true ∧ (finf 0xFF800000#32 = true ∧ fzero 0x80000000#32 = true) ∧
    (fnan 1#32 = false ∧ fzero 1#32 = false) := by decide

/-- MultiplicationRoundsTheExactProduct: rounding on both sides of the overflow, and its two halves met. -/
theorem test_overflow :
    roundMag ((2 ^ 25 - 1) * 2 ^ 252) 1 = 0x7F800000 ∧ roundMag ((2 ^ 25 - 1) * 2 ^ 252 - 1) 1 = 0x7F7FFFFF := by decide

/-- The product's special cases on fixed operands (IEEE-754, R9). -/
theorem test_fmul_special :
    fmul 0x7F800000#32 0x80000000#32 = qnan ∧ fmul 0xFF800000#32 fone = 0xFF800000#32 ∧
    fmul 0x7F7FFFFF#32 0xC0000000#32 = 0xFF800000#32 ∧ fmul 1#32 0x3F000000#32 = 0#32 := by decide


end Sys2Proof.Tests
end

section
/-! The sticky flags along a step (00_scope.md R14, 60_exceptions.md R335), and the step of a scheduled transaction
(00_scope.md R5). -/

namespace Sys2Proof.Proofs

open Sys2Proof Sys2Proof.Machine

/-- No sticky flag that is 1 in `s` is 0 in `t` (R14). -/
structure KeepsFlags (s t : State) : Prop where
  fsat : s.fsat = true → t.fsat = true
  osat : s.osat = true → t.osat = true
  nans : s.nans = true → t.nans = true

variable {s t : State}

theorem KeepsFlags.of_eq (hf : t.fsat = s.fsat) (ho : t.osat = s.osat) (hn : t.nans = s.nans) : KeepsFlags s t :=
  ⟨fun h => hf.trans h, fun h => ho.trans h, fun h => hn.trans h⟩

/-- The statement's premise is that the flags are not all kept. -/
theorem KeepsFlags.not_fallen (h : KeepsFlags s t) :
    ¬ ((s.fsat = true ∧ t.fsat = false) ∨ (s.osat = true ∧ t.osat = false) ∨ (s.nans = true ∧ t.nans = false)) := by
  obtain ⟨hf, ho, hn⟩ := h
  rintro (⟨h1, h0⟩ | ⟨h1, h0⟩ | ⟨h1, h0⟩)
  · simp [hf h1] at h0
  · simp [ho h1] at h0
  · simp [hn h1] at h0

/-! ### The shared operations -/

theorem readReg_keepsFlags {v : Word} (h : readReg v s = .next t) : KeepsFlags s t := by
  cases readReg_next h
  exact .of_eq rfl rfl rfl

theorem readHalf_keepsFlags {v : Half} (h : readHalf v s = .next t) : KeepsFlags s t := by
  cases readHalf_next h
  exact .of_eq rfl rfl rfl

theorem writeIgnored_keepsFlags (h : writeIgnored s = .next t) : KeepsFlags s t := by
  cases writeIgnored_next h
  exact .of_eq rfl rfl rfl

theorem writeCfg_keepsFlags {c : CfgRegs} (h : writeCfg c s = .next t) : KeepsFlags s t := by
  rcases writeCfg_next h with ⟨_, rfl⟩ | ⟨_, rfl⟩ <;> exact .of_eq rfl rfl rfl

theorem fireUnit_keepsFlags (u : UnitId) (s : State) : KeepsFlags s (fireUnit u s) :=
  ⟨fireUnit_fsat s u, fireUnit_osat s u, fireUnit_nans s u⟩

/-- A waiting step is one firing of the core's choice. -/
theorem waitTurn_keepsFlags (h : waitTurn s = .next t) : KeepsFlags s t := by
  obtain ⟨u, _, rfl⟩ := coreMove_next h
  obtain ⟨hf, ho, hn⟩ := fireUnit_keepsFlags u { s with choice := s.choice + 1 }
  exact ⟨hf, ho, hn⟩

theorem scheduledFire_keepsFlags {u : UnitId} (h : scheduledFire u (fireUnit u s) s = .next t) : KeepsFlags s t := by
  rcases scheduledFire_next h with ⟨_, rfl⟩ | ⟨_, w, _, rfl⟩
  · obtain ⟨hf, ho, hn⟩ := fireUnit_keepsFlags u s
    exact ⟨hf, ho, hn⟩
  · obtain ⟨hf, ho, hn⟩ := fireUnit_keepsFlags w { s with choice := s.choice + 1 }
    exact ⟨hf, ho, hn⟩

/-! ### The operations with an effect of their own -/

theorem execRdTapData_keepsFlags (sub : BitVec 2) (h : execRdTapData sub s = .next t) : KeepsFlags s t := by
  cases answer_next h
  exact .of_eq rfl rfl rfl

theorem execWrIrqEn_keepsFlags (sub : BitVec 2) {v : Word} (h : execWrIrqEn sub v s = .next t) : KeepsFlags s t := by
  cases complete_next h
  exact .of_eq rfl rfl rfl

theorem execWrTapAddr_keepsFlags (sub : BitVec 2) {v : Word} (h : execWrTapAddr sub v s = .next t) :
    KeepsFlags s t := by
  cases complete_next h
  exact .of_eq rfl rfl rfl

theorem execWrTapData_keepsFlags (sub : BitVec 2) {v : Word} (h : execWrTapData sub v s = .next t) :
    KeepsFlags s t := by
  unfold execWrTapData at h
  split at h <;> cases complete_next h <;> exact .of_eq rfl rfl rfl

theorem execPushIq_keepsFlags {i q : Byte} (h : execPushIq i q s = .next t) : KeepsFlags s t := by
  unfold execPushIq at h
  split at h
  · cases complete_next h
    exact .of_eq rfl rfl rfl
  · exact waitTurn_keepsFlags h

theorem execPushAud_keepsFlags {v : F32} (h : execPushAud v s = .next t) : KeepsFlags s t := by
  unfold execPushAud at h
  split at h
  · cases complete_next h
    exact .of_eq rfl rfl rfl
  · exact waitTurn_keepsFlags h

theorem execPopAud_keepsFlags (h : execPopAud s = .next t) : KeepsFlags s t := by
  unfold execPopAud at h
  split at h
  · exact waitTurn_keepsFlags h
  · cases answer_next h
    exact .of_eq rfl rfl rfl

theorem execPopBit_keepsFlags (h : execPopBit s = .next t) : KeepsFlags s t := by
  unfold execPopBit at h
  split at h
  · exact waitTurn_keepsFlags h
  · cases answer_next h
    exact .of_eq rfl rfl rfl

/-! ### The two writes that clear -/

/-- A write of STATUS clears the flags whose bit is set. -/
theorem execWrStatus_fallen (sub : BitVec 2) {v : Word} (h : execWrStatus sub v s = .next t) :
    (s.fsat = true → t.fsat = false → v.getLsbD 8 = true) ∧
    (s.osat = true → t.osat = false → v.getLsbD 9 = true) ∧
    (s.nans = true → t.nans = false → v.getLsbD 10 = true) := by
  cases complete_next h
  refine ⟨fun h1 h0 => ?_, fun h1 h0 => ?_, fun h1 h0 => ?_⟩ <;> simpa [h1] using h0

/-- A write of CTRL keeps the flags, or it is SOFT_RESET, or START from outside RUN that reaches RUN. -/
theorem execWrCtrl_keepsFlags_or (sub : BitVec 2) {v : Word} (h : execWrCtrl sub v s = .next t) :
    KeepsFlags s t ∨ v.getLsbD 1 = true ∨ (v.getLsbD 0 = true ∧ s.mode ≠ .run ∧ t.mode = .run) := by
  cases complete_next h
  rcases command_cases v s with ⟨hreset, _⟩ | ⟨_, hstart, hmode, hc⟩ | ⟨_, _, hc⟩
  · exact .inr (.inl hreset)
  · rcases start_cases s with ⟨_, hs⟩ | ⟨_, hs⟩
    · exact .inl (.of_eq (by simp [hc, hs]) (by simp [hc, hs]) (by simp [hc, hs]))
    · exact .inr (.inr ⟨hstart, hmode, by simp [hc, hs]⟩)
  · exact .inl (.of_eq (by simp [hc]) (by simp [hc]) (by simp [hc]))

/-! ### Every operation -/

/-- Which operations can clear a flag at all. -/
theorem exec_keepsFlags_or {i : Instr} (h : exec i s = .next t) :
    KeepsFlags s t ∨ (∃ sub v, i = .wrStatus sub v) ∨ ∃ sub v, i = .wrCtrl sub v := by
  cases i with
  | wrStatus sub v => exact .inr (.inl ⟨sub, v, rfl⟩)
  | wrCtrl sub v => exact .inr (.inr ⟨sub, v, rfl⟩)
  | rdId | rdCtrl | rdStatus | rdIrqEn | rdInCount | rdAudCount | rdSymCount | rdBitCount | rdRxFreq | rdRxPhase
  | rdRxOmega | rdRxMu | rdCsInc | rdFmdGain | rdFmdAlpha | rdTmInc | rdRxOmegaMid | rdRxOmegaRel | rdRxGainMu
  | rdRxGainOmega | rdRxAlpha | rdRxBeta | rdRxFmin | rdRxFmax | rdTapAddr | rdUnmapped =>
    exact .inl (readReg_keepsFlags h)
  | rdCsDecim | rdCsNtaps | rdFmdDecim | rdFmdNtaps | rdTmDecim | rdTmNtaps | rdDdSkip =>
    exact .inl (readHalf_keepsFlags h)
  | rdTapData sub => exact .inl (execRdTapData_keepsFlags sub h)
  | wrId | wrInCount | wrAudCount | wrSymCount | wrBitCount | wrRxFreq | wrRxPhase | wrRxOmega | wrRxMu
  | wrUnmapped => exact .inl (writeIgnored_keepsFlags h)
  | wrCsInc | wrCsDecim | wrCsNtaps | wrFmdGain | wrFmdDecim | wrFmdNtaps | wrFmdAlpha | wrTmInc | wrTmDecim
  | wrTmNtaps | wrRxOmegaMid | wrRxOmegaRel | wrRxGainMu | wrRxGainOmega | wrRxAlpha | wrRxBeta | wrRxFmin
  | wrRxFmax | wrDdSkip => exact .inl (writeCfg_keepsFlags h)
  | wrIrqEn sub => exact .inl (execWrIrqEn_keepsFlags sub h)
  | wrTapAddr sub => exact .inl (execWrTapAddr_keepsFlags sub h)
  | wrTapData sub => exact .inl (execWrTapData_keepsFlags sub h)
  | pushIq => exact .inl (execPushIq_keepsFlags h)
  | popAud => exact .inl (execPopAud_keepsFlags h)
  | pushAud => exact .inl (execPushAud_keepsFlags h)
  | popBit => exact .inl (execPopBit_keepsFlags h)
  | fireMix0 => exact .inl (scheduledFire_keepsFlags (u := .mix0) h)
  | fireFir0 => exact .inl (scheduledFire_keepsFlags (u := .fir0) h)
  | fireQd => exact .inl (scheduledFire_keepsFlags (u := .qd) h)
  | fireFir1 => exact .inl (scheduledFire_keepsFlags (u := .fir1) h)
  | fireDe => exact .inl (scheduledFire_keepsFlags (u := .de) h)
  | fireMix1 => exact .inl (scheduledFire_keepsFlags (u := .mix1) h)
  | fireFir2 => exact .inl (scheduledFire_keepsFlags (u := .fir2) h)
  | fireRx => exact .inl (scheduledFire_keepsFlags (u := .rx) h)
  | fireDd => exact .inl (scheduledFire_keepsFlags (u := .dd) h)

/-- Settles O44: of the operations that can clear a flag, the write of STATUS clears by its bits, the write of CTRL by
SOFT_RESET or a START that succeeds. -/
theorem stickyFlagsFallOnlyByClearing : Obligations.StickyFlagsFallOnlyByClearing := by
  intro i s t h hfallen
  rcases exec_keepsFlags_or h with hkeeps | ⟨sub, v, rfl⟩ | ⟨sub, v, rfl⟩
  · exact absurd hfallen hkeeps.not_fallen
  · exact .inl ⟨sub, v, rfl, execWrStatus_fallen sub h⟩
  · exact .inr ⟨sub, v, rfl, (execWrCtrl_keepsFlags_or sub h).resolve_left fun hkeeps => hkeeps.not_fallen hfallen⟩

/-! ### The step of a scheduled transaction -/

/-- Settles O29: the decoder's answer is an operation. -/
theorem stepRunsTheDecodedOperation : Obligations.StepRunsTheDecodedOperation := by
  intro s tx rest i hpending hdecode
  rw [step, hpending]
  simp only [hdecode]

end Sys2Proof.Proofs
end

section
/-! Rounding (00_scope.md R8): the pattern `roundMag` starts from, the gap to the next one, and which of the two it takes;
the order of the magnitudes. -/

namespace Sys2Proof.Proofs

open Sys2Proof.Machine

/-! ### The order of finite magnitudes -/

/-- A pattern built from a shift and a significand of at most 24 bits, and no fewer where the shift is not 0, encodes the
shifted significand; so it does where rounding has carried out of the 24 bits. -/
theorem magUnits_shift_add {shift m : Nat} (hm : m ≤ 2 ^ 24) (hs : shift = 0 ∨ 2 ^ 23 ≤ m) :
    magUnits (shift * 2 ^ 23 + m) = m * 2 ^ shift := by
  unfold magUnits
  rcases lt_or_ge m (2 ^ 23) with hlow | hnormal
  · obtain rfl : shift = 0 := by omega
    rw [if_pos (by omega)]
    simp
  · rw [if_neg (by omega)]
    rcases hm.lt_or_eq with hlt | rfl
    · rw [show (shift * 2 ^ 23 + m) / 2 ^ 23 - 1 = shift by omega,
        show 2 ^ 23 + (shift * 2 ^ 23 + m) % 2 ^ 23 = m by omega]
    · rw [show (shift * 2 ^ 23 + 2 ^ 24) / 2 ^ 23 - 1 = shift + 1 by omega,
        show (shift * 2 ^ 23 + 2 ^ 24) % 2 ^ 23 = 0 by omega]
      ring

/-- Every pattern has the form of `magUnits_shift_add`, its significand short of a carry. -/
theorem exists_shift_significand (k : Nat) :
    ∃ shift m, k = shift * 2 ^ 23 + m ∧ m < 2 ^ 24 ∧ (shift = 0 ∨ 2 ^ 23 ≤ m) :=
  ⟨k / 2 ^ 23 - 1, k - (k / 2 ^ 23 - 1) * 2 ^ 23, by omega, by omega, by omega⟩

theorem magUnits_strictMono : StrictMono magUnits := by
  refine strictMono_nat_of_lt_succ fun k => ?_
  obtain ⟨shift, m, rfl, hm, hs⟩ := exists_shift_significand k
  rw [Nat.add_assoc, magUnits_shift_add hm.le hs, magUnits_shift_add hm (by omega)]
  exact Nat.mul_lt_mul_of_pos_right (Nat.lt_succ_self m) (by positivity)

/-! ### What `roundMag` does -/

/-- How far `roundMag` shifts `p / q` to keep 24 significant bits. -/
def roundShift (p q : Nat) : Nat := Nat.log2 (p / q) - 23

/-- The distance from the pattern below `p / q` to the next one, in units of 2^-149 / `q`. -/
def gap (p q : Nat) : Nat := q * 2 ^ roundShift p q

/-- The pattern next below `p / q`, or the one it is. -/
def roundDown (p q : Nat) : Nat := roundShift p q * 2 ^ 23 + p / gap p q

/-- `roundMag` goes up from `roundDown`: beyond the middle, and in the middle from an odd pattern. -/
def RoundsUp (p q : Nat) : Prop :=
  gap p q < 2 * (p % gap p q) ∨ (2 * (p % gap p q) = gap p q ∧ roundDown p q % 2 = 1)

variable {p q : Nat}

theorem gap_pos (hq : 0 < q) : 0 < gap p q := Nat.mul_pos hq (by positivity)

/-- `roundMag` takes the pattern next below or next above, the infinity's where that is beyond it. -/
theorem roundMag_cases (p q : Nat) :
    (RoundsUp p q ∧ roundMag p q = min (roundDown p q + 1) 0x7F800000) ∨
    (¬ RoundsUp p q ∧ roundMag p q = min (roundDown p q) 0x7F800000) := by
  have hpar : roundDown p q % 2 = p / gap p q % 2 := by
    unfold roundDown
    omega
  have hround : roundMag p q =
      min (roundDown p q +
        if gap p q < 2 * (p % gap p q) ∨ (2 * (p % gap p q) = gap p q ∧ p / gap p q % 2 = 1) then 1 else 0)
        0x7F800000 := rfl
  rw [RoundsUp, hpar, hround]
  by_cases h : gap p q < 2 * (p % gap p q) ∨ (2 * (p % gap p q) = gap p q ∧ p / gap p q % 2 = 1)
  · rw [if_pos h]
    exact .inl ⟨h, rfl⟩
  · rw [if_neg h, Nat.add_zero]
    exact .inr ⟨h, rfl⟩

/-- The significand kept has at most 24 bits, and exactly 24 where something was shifted out. -/
theorem significand_bounds (p q : Nat) :
    p / gap p q < 2 ^ 24 ∧ (roundShift p q = 0 ∨ 2 ^ 23 ≤ p / gap p q) := by
  have hdiv : p / gap p q = p / q / 2 ^ roundShift p q := (Nat.div_div_eq_div_mul _ _ _).symm
  rw [hdiv]
  constructor
  · rw [Nat.div_lt_iff_lt_mul (by positivity), ← pow_add]
    refine lt_of_lt_of_le Nat.lt_log2_self (Nat.pow_le_pow_right (by decide) ?_)
    unfold roundShift
    omega
  · refine or_iff_not_imp_left.2 fun hshift => ?_
    have hne : p / q ≠ 0 := by
      intro h0
      simp [roundShift, h0] at hshift
    rw [Nat.le_div_iff_mul_le (by positivity), ← pow_add]
    refine le_trans (Nat.pow_le_pow_right (by decide) ?_) (Nat.log2_self_le hne)
    unfold roundShift at hshift ⊢
    omega

theorem magUnits_roundDown (p q : Nat) : magUnits (roundDown p q) * q + p % gap p q = p := by
  obtain ⟨hlt, hs⟩ := significand_bounds p q
  rw [roundDown, magUnits_shift_add hlt.le hs, Nat.mul_right_comm, Nat.mul_assoc, ← gap]
  exact Nat.div_add_mod' p (gap p q)

theorem magUnits_roundDown_succ (p q : Nat) :
    magUnits (roundDown p q + 1) * q = magUnits (roundDown p q) * q + gap p q := by
  obtain ⟨hlt, hs⟩ := significand_bounds p q
  rw [roundDown, Nat.add_assoc, magUnits_shift_add hlt.le hs,
    magUnits_shift_add (m := p / gap p q + 1) hlt (by omega), gap]
  ring

/-! ### The nearest pattern -/

/-- How far the pattern `k` is from `p / q`, in units of 2^-149 / `q`. -/
def roundErr (p q k : Nat) : Int := |(p : Int) - (magUnits k * q : Nat)|

theorem roundErr_roundDown (p q : Nat) : roundErr p q (roundDown p q) = (p % gap p q : Nat) := by
  have hdown := magUnits_roundDown p q
  rw [roundErr, abs_of_nonneg] <;> omega

theorem roundErr_roundDown_succ (hq : 0 < q) :
    roundErr p q (roundDown p q + 1) = (gap p q : Nat) - (p % gap p q : Nat) := by
  have hdown := magUnits_roundDown p q
  have hup := magUnits_roundDown_succ p q
  have hrem := Nat.mod_lt p (gap_pos (p := p) hq)
  rw [roundErr, abs_of_nonpos] <;> omega

/-- A pattern below `roundDown` is further from `p / q` than it. -/
theorem lt_roundErr_of_lt_roundDown {k : Nat} (hq : 0 < q) (hk : k < roundDown p q) :
    (p % gap p q : Nat) < roundErr p q k := by
  have hdown := magUnits_roundDown p q
  have hlt := Nat.mul_lt_mul_of_pos_right (magUnits_strictMono hk) hq
  rw [roundErr, abs_of_nonneg] <;> omega

/-- A pattern above the one next to `roundDown` is further from `p / q` than that. -/
theorem lt_roundErr_of_roundDown_succ_lt {k : Nat} (hq : 0 < q) (hk : roundDown p q + 1 < k) :
    (gap p q : Int) - (p % gap p q : Nat) < roundErr p q k := by
  have hdown := magUnits_roundDown p q
  have hup := magUnits_roundDown_succ p q
  have hrem := Nat.mod_lt p (gap_pos (p := p) hq)
  have hlt := Nat.mul_lt_mul_of_pos_right (magUnits_strictMono hk) hq
  rw [roundErr, abs_of_nonpos] <;> omega

/-- A pattern is one of the two next to `p / q`, or further from `p / q` than one of them. -/
theorem roundErr_cases (p : Nat) (hq : 0 < q) (k : Nat) :
    k = roundDown p q ∨ k = roundDown p q + 1 ∨
    (p % gap p q : Nat) < roundErr p q k ∨ (gap p q : Int) - (p % gap p q : Nat) < roundErr p q k := by
  rcases lt_trichotomy k (roundDown p q) with hlt | heq | hgt
  · exact .inr (.inr (.inl (lt_roundErr_of_lt_roundDown hq hlt)))
  · exact .inl heq
  · rcases (Nat.succ_le_of_lt hgt).eq_or_lt with heq | hgt
    · exact .inr (.inl heq.symm)
    · exact .inr (.inr (.inr (lt_roundErr_of_roundDown_succ_lt hq hgt)))

/-- Settles O58: the two patterns next to `p / q` are nearer than all others, `RoundsUp` picks the nearer of the two, and
in the middle the even one. -/
theorem roundingIsToNearestTiesToEven : Obligations.RoundingIsToNearestTiesToEven := by
  intro p q k hq hfinite _
  change roundErr p q (roundMag p q) ≤ roundErr p q k ∧
    (roundErr p q (roundMag p q) = roundErr p q k → k ≠ roundMag p q → roundMag p q % 2 = 0)
  have hbelow := roundErr_roundDown p q
  have habove := roundErr_roundDown_succ (p := p) hq
  rcases roundMag_cases p q with ⟨hup, hround⟩ | ⟨hup, hround⟩ <;> unfold RoundsUp at hup
  · rw [show roundMag p q = roundDown p q + 1 by omega]
    rcases roundErr_cases p hq k with rfl | rfl | hfar | hfar <;> omega
  · rw [show roundMag p q = roundDown p q by omega]
    rcases roundErr_cases p hq k with rfl | rfl | hfar | hfar <;> omega

/-! ### Where rounding overflows -/

/-- The greatest finite value is `2^128 - 2^104`, and `2^128` would follow it: half a unit in the last place is `2^252`
units of 2^-149. -/
theorem magUnits_greatest :
    magUnits 0x7F7FFFFF = (2 ^ 25 - 2) * 2 ^ 252 ∧ magUnits 0x7F800000 = 2 ^ 25 * 2 ^ 252 := by
  have hmax := magUnits_shift_add (shift := 253) (m := 2 ^ 24 - 1) (by decide) (by decide)
  have hinf := magUnits_shift_add (shift := 253) (m := 2 ^ 24) (by decide) (by decide)
  rw [pow_succ 2 252, Nat.mul_comm (2 ^ 252), ← Nat.mul_assoc] at hmax hinf
  exact ⟨hmax, hinf⟩

/-- `2^128 - 2^103` is the middle between the greatest finite value and the power of two above it (R8). -/
theorem roundMag_eq_infinity_iff (hq : 0 < q) :
    roundMag p q = 0x7F800000 ↔ (2 ^ 25 - 1) * 2 ^ 252 * q ≤ p := by
  obtain ⟨hmax, hinf⟩ := magUnits_greatest
  have hdown := magUnits_roundDown p q
  have hup := magUnits_roundDown_succ p q
  have hrem := Nat.mod_lt p (gap_pos (p := p) hq)
  rw [Nat.mul_assoc]
  rcases lt_trichotomy (roundDown p q) 0x7F7FFFFF with hlt | heq | hgt
  · -- `p / q` is below the greatest finite value
    have hle := Nat.mul_le_mul_right q (magUnits_strictMono.monotone (Nat.succ_le_of_lt hlt))
    rw [Nat.succ_eq_add_one, hmax, Nat.mul_assoc] at hle
    generalize 2 ^ 252 * q = half at hle ⊢
    clear hmax hinf
    rcases roundMag_cases p q with ⟨-, hround⟩ | ⟨-, hround⟩ <;> omega
  · -- `p / q` is between the two, and the lower one is odd
    rw [heq, hmax, Nat.mul_assoc] at hdown hup
    rw [hinf, Nat.mul_assoc] at hup
    generalize 2 ^ 252 * q = half at hdown hup ⊢
    have hiff : RoundsUp p q ↔ gap p q ≤ 2 * (p % gap p q) := by
      unfold RoundsUp
      omega
    rcases roundMag_cases p q with ⟨hr, hround⟩ | ⟨hr, hround⟩ <;> rw [hiff] at hr <;> omega
  · -- `p / q` is at least the power of two
    have hle := Nat.mul_le_mul_right q (magUnits_strictMono.monotone (Nat.succ_le_of_lt hgt))
    rw [Nat.succ_eq_add_one, hinf, Nat.mul_assoc] at hle
    generalize 2 ^ 252 * q = half at hle ⊢
    clear hmax hinf
    rcases roundMag_cases p q with ⟨-, hround⟩ | ⟨-, hround⟩ <;> omega

end Sys2Proof.Proofs
end

section
/-! The sum and the product of R9, by the branches of their definitions. -/

namespace Sys2Proof.Proofs

open Sys2Proof.Machine

/-- A rounding has the magnitude of a pattern, whatever its sign. -/
theorem fmag_fpack_roundMag (neg : Bool) (p q : Nat) : fmag (fpack neg (roundMag p q)) = roundMag p q :=
  fmag_fpack (roundMag_lt p q)

theorem fsign_fpack_roundMag (neg : Bool) (p q : Nat) : fsign (fpack neg (roundMag p q)) = neg :=
  fsign_fpack (roundMag_lt p q)

/-! ### The sum -/

variable {a b : F32}

theorem fadd_of_finite (ha : ffinite a = true) (hb : ffinite b = true) :
    fadd a b = if fval a + fval b = 0 then fpack (fsign a && fsign b) 0
      else fpack (decide (fval a + fval b < 0)) (roundMag (fval a + fval b).natAbs 1) := by
  simp only [ffinite_of_not, Bool.and_eq_true, Bool.not_eq_true'] at ha hb
  simp [fadd, ha, hb]

theorem fadd_of_nan (h : fnan a = true ∨ fnan b = true) : fadd a b = qnan := by
  simp [fadd, h]

theorem fnan_of_finf (h : finf a = true) : fnan a = false := by
  simp only [finf, decide_eq_true_eq] at h
  simp [fnan, h]

theorem fadd_of_inf_left (ha : finf a = true) (hb : fnan b = false) :
    fadd a b = if finf b = true ∧ fsign a ≠ fsign b then qnan else a := by
  simp [fadd, ha, hb, fnan_of_finf ha]

/-- An infinity and a finite value sum to that infinity, in either order. -/
theorem fadd_of_inf_of_finite (ha : finf a = true) (hb : ffinite b = true) : fadd a b = a ∧ fadd b a = a := by
  simp only [ffinite_of_not, Bool.and_eq_true, Bool.not_eq_true'] at hb
  obtain ⟨hnan, hinf⟩ := hb
  have hab : fadd a b = a := by simp [fadd_of_inf_left ha hnan, hinf]
  exact ⟨hab, fadd_comm hnan (fnan_of_finf ha) ▸ hab⟩

/-- Settles O59, by the branches of the sum: finite operands with exact sum 0 or not, a NaN, infinities. -/
theorem additionRoundsTheExactSum : Obligations.AdditionRoundsTheExactSum := by
  intro a b
  refine ⟨fun ha hb => ⟨fun hzero => ?_, fun hne => ?_⟩, fadd_of_nan, fun ha hb hs => ?_, fun ha hb hs => ?_,
    fadd_of_inf_of_finite, rfl⟩
  · rw [fadd_of_finite ha hb, if_pos hzero, fsign_fpack (by decide), fzero, fmag_fpack (by decide)]
    simp
  · rw [fadd_of_finite ha hb, if_neg hne, fmag_fpack_roundMag, fsign_fpack_roundMag]
    simp
  · rw [fadd_of_inf_left ha (fnan_of_finf hb), if_pos ⟨hb, hs⟩]
    rfl
  · rw [fadd_of_inf_left ha (fnan_of_finf hb), if_neg (fun h => h.2 hs)]

/-! ### The product -/

theorem natAbs_fval (a : F32) : (fval a).natAbs = magUnits (fmag a) := by
  cases h : fsign a <;> simp [fval, h]

theorem fmul_of_finite (ha : ffinite a = true) (hb : ffinite b = true) :
    fmul a b = fpack (fsign a != fsign b) (roundMag (fval a * fval b).natAbs (2 ^ 149)) := by
  simp only [ffinite_of_not, Bool.and_eq_true, Bool.not_eq_true'] at ha hb
  simp [fmul, ha, hb, Int.natAbs_mul, natAbs_fval, unitsPerOne]

theorem fmul_of_nan (h : fnan a = true ∨ fnan b = true) : fmul a b = qnan := by
  simp [fmul, h]

theorem fzero_of_finf (h : finf a = true) : fzero a = false := by
  simp only [finf, decide_eq_true_eq] at h
  simp [fzero, h]

theorem fmul_of_inf_left (ha : finf a = true) (hb : fnan b = false) :
    fmul a b = if fzero b = true then qnan else fpack (fsign a != fsign b) 0x7F800000 := by
  simp [fmul, ha, hb, fnan_of_finf ha, fzero_of_finf ha]

theorem fnan_of_fzero (h : fzero a = true) : fnan a = false := by
  simp only [fzero, decide_eq_true_eq] at h
  simp [fnan, h]

/-- An infinity times what is neither a NaN nor a zero is an infinity with the product's sign. -/
theorem fmul_of_inf_of_ne_zero (ha : finf a = true) (hb : fnan b = false) (hz : fzero b = false) :
    finf (fmul a b) = true ∧ (fsign (fmul a b) = true ↔ fsign a ≠ fsign b) := by
  rw [fmul_of_inf_left ha hb, hz, if_neg (by decide), finf, fmag_fpack (by decide), fsign_fpack (by decide)]
  simp

/-- Settles O60: the product by its branches, in either order by `fmul_comm`; the overflow by
`roundMag_eq_infinity_iff`. -/
theorem multiplicationRoundsTheExactProduct : Obligations.MultiplicationRoundsTheExactProduct := by
  refine ⟨fun a b => ⟨fun ha hb => ?_, fmul_of_nan, fun ha hz => ?_, fun ha hb hz => ?_⟩,
    fun p q hq => ⟨Nat.min_le_right _ _, roundMag_eq_infinity_iff hq⟩⟩
  · rw [fmul_of_finite ha hb, fmag_fpack_roundMag, fsign_fpack_roundMag]
    simp
  · have hab : fmul a b = qnan := by rw [fmul_of_inf_left ha (fnan_of_fzero hz), if_pos hz]
    exact ⟨hab, fmul_comm a b ▸ hab⟩
  · obtain ⟨hinf, hsign⟩ := fmul_of_inf_of_ne_zero ha hb hz
    rw [fmul_comm b a]
    exact ⟨hinf, hinf, hsign, hsign⟩

end Sys2Proof.Proofs
end

section
/-! The oscillator's lanes: what R11's range properties and special cases give of every implementation. -/

namespace Sys2Proof.Proofs

open Sys2Proof Sys2Proof.Machine

/-- Whatever a raw function answers, `within` brings it between the bounds, a NaN to a zero between them. -/
theorem within_between {lo hi : F32} (hlo : fle lo hi = true) (hzero : Between lo 0#32 hi) (v : F32) :
    Between lo (within lo hi v) hi := by
  unfold within
  split
  · exact hzero
  · exact fclamp_between (by simpa using ‹¬ fnan v = true›) hlo

theorem fle_ones : fle fnegOne fone = true := by decide

theorem zero_between_ones : Between fnegOne 0#32 fone := ⟨by decide, by decide⟩

theorem fone_between_ones : Between fnegOne fone fone := ⟨fle_ones, by decide⟩

theorem fnegOne_between_ones : Between fnegOne fnegOne fone := ⟨by decide, fle_ones⟩

/-- Each branch answers a value in `[-1, 1]`: an exact one at the quarter turns, else one brought there. -/
theorem admitCosTurn_between (raw : Word → F32) (a : Word) : Between fnegOne (admitCosTurn raw a) fone := by
  unfold admitCosTurn
  split_ifs
  · exact fone_between_ones
  · exact zero_between_ones
  · exact fnegOne_between_ones
  · exact zero_between_ones
  · exact within_between fle_ones zero_between_ones _

/-- The same of the sine, its quarter turns one later. -/
theorem admitSinTurn_between (raw : Word → F32) (a : Word) : Between fnegOne (admitSinTurn raw a) fone := by
  unfold admitSinTurn
  split_ifs
  · exact zero_between_ones
  · exact fone_between_ones
  · exact zero_between_ones
  · exact fnegOne_between_ones
  · exact within_between fle_ones zero_between_ones _

theorem admitCosTurn_quarters (raw : Word → F32) :
    admitCosTurn raw 0#32 = fone ∧ admitCosTurn raw 0x40000000#32 = 0#32 ∧
    admitCosTurn raw 0x80000000#32 = fnegOne ∧ admitCosTurn raw 0xC0000000#32 = 0#32 := by
  simp [admitCosTurn]

theorem admitSinTurn_quarters (raw : Word → F32) :
    admitSinTurn raw 0#32 = 0#32 ∧ admitSinTurn raw 0x40000000#32 = fone ∧
    admitSinTurn raw 0x80000000#32 = 0#32 ∧ admitSinTurn raw 0xC0000000#32 = fnegOne := by
  simp [admitSinTurn]

/-- Settles O52: `num` admits the implementation's functions, whatever they are. -/
theorem oscillatorLanesAreBounded : Obligations.OscillatorLanesAreBounded := by
  obtain ⟨hc0, hc1, hc2, hc3⟩ := admitCosTurn_quarters Config.cosTurnRaw
  obtain ⟨hs0, hs1, hs2, hs3⟩ := admitSinTurn_quarters Config.sinTurnRaw
  exact ⟨fun a => ⟨admitCosTurn_between _ a, admitSinTurn_between _ a⟩, Prod.ext hc0 hs0, Prod.ext hc1 hs1,
    Prod.ext hc2 hs2, Prod.ext hc3 hs3⟩

end Sys2Proof.Proofs
end

section
/-! Everything an operation can do to the core, once: `exec_does` gives each of the 81 operations one of ten effects, and
`step_keeps` derives from it when a predicate of the core is kept by every step. -/

namespace Sys2Proof.Proofs

open Sys2Proof Sys2Proof.Machine

/-! ### The core's state -/

/-- `t` is `s` but for IRQ_EN, TAP_ADDR, what is scheduled, what was returned and the choices drawn: no other field of
the core depends on these. -/
inductive SameCore (s : State) : State → Prop where
  | intro (irqEn : BitVec 4) (tapBank : BitVec 2) (tapIndex : Half) (pending : List Event) (ret : Option Returned)
      (choice : Nat) :
      SameCore s { s with irqEn, tapBank, tapIndex, pending, ret, choice }

/-- What an operation does to the core, as the core's state after it. An operation that waits is the firing of whichever
unit the core takes, from a state that differs in the choices drawn. -/
inductive Effect (s : State) : Instr → State → Prop where
  | unchanged (i : Instr) : Effect s i s
  | command (sub : BitVec 2) (v : Word) : Effect s (.wrCtrl sub v) (command v s)
  | clearFlags (sub : BitVec 2) (v : Word) : Effect s (.wrStatus sub v) (clearFlags s v)
  | storeCfg (i : Instr) (c : CfgRegs) (hmode : s.mode ≠ .run) : Effect s i { s with cfg := c }
  | storeTap (sub : BitVec 2) (v : Word) (hmode : s.mode ≠ .run) :
      Effect s (.wrTapData sub v) { s with taps := tapWrite s.taps s.tapBank s.tapIndex v }
  | pushIq (i q : Byte) (hport : portAccepts s s.ch.iq.length = true) :
      Effect s (.pushIq i q)
        { s with
          ch := { s.ch with iq := s.ch.iq ++ [iqElement i q] }
          cnt := { s.cnt with inCount := s.cnt.inCount + 1#32 } }
  | pushAud (v : F32) (hport : portAccepts s s.ch.ain.length = true) :
      Effect s (.pushAud v) { s with ch := { s.ch with ain := s.ch.ain ++ [v] } }
  | popAud {v : F32} {rest : List F32} (hch : s.ch.aout = v :: rest) :
      Effect s .popAud { s with ch := { s.ch with aout := rest } }
  | popBit {v : Byte} {rest : List Byte} (hch : s.ch.bit = v :: rest) :
      Effect s .popBit { s with ch := { s.ch with bit := rest } }
  | fire (i : Instr) (u : UnitId) (choice : Nat) (hu : enabled u s = true) :
      Effect s i (fireUnit u { s with choice })

/-- `t` is a state that `i` can lead to from `s`. -/
def Does (i : Instr) (s t : State) : Prop := ∃ e, Effect s i e ∧ SameCore e t

variable {s t : State} {i : Instr}

theorem sameCore_retire (s : State) : SameCore s (retire s) := .intro _ _ _ _ _ _

theorem SameCore.refl (s : State) : SameCore s s := .intro _ _ _ _ _ _

/-! ### The shared operations -/

theorem complete_does {e : State} (he : Effect s i e) (h : complete e = .next t) : Does i s t :=
  ⟨e, he, complete_next h ▸ sameCore_retire e⟩

theorem answer_does {r : Returned} {e : State} (he : Effect s i e) (h : answer r e = .next t) : Does i s t :=
  ⟨e, he, answer_next h ▸ .intro _ _ _ _ _ _⟩

theorem readReg_does {v : Word} (h : readReg v s = .next t) : Does i s t := answer_does (.unchanged i) h

theorem readHalf_does {v : Half} (h : readHalf v s = .next t) : Does i s t := answer_does (.unchanged i) h

theorem writeIgnored_does (h : writeIgnored s = .next t) : Does i s t := complete_does (.unchanged i) h

theorem writeCfg_does {c : CfgRegs} (h : writeCfg c s = .next t) : Does i s t := by
  rcases writeCfg_next h with ⟨_, rfl⟩ | ⟨hmode, rfl⟩
  · exact ⟨s, .unchanged i, sameCore_retire s⟩
  · exact ⟨_, .storeCfg i c hmode, sameCore_retire _⟩

theorem waitTurn_does (h : waitTurn s = .next t) : Does i s t := by
  obtain ⟨u, hu, rfl⟩ := coreMove_next h
  exact ⟨_, .fire i u (s.choice + 1) hu, .refl _⟩

theorem scheduledFire_does {u : UnitId} (h : scheduledFire u (fireUnit u s) s = .next t) : Does i s t := by
  rcases scheduledFire_next h with ⟨hu, rfl⟩ | ⟨_, w, hw, rfl⟩
  · exact ⟨_, .fire i u s.choice hu, sameCore_retire _⟩
  · exact ⟨_, .fire i w (s.choice + 1) hw, .refl _⟩

/-! ### The operations with an effect of their own -/

theorem execRdTapData_does (sub : BitVec 2) (h : execRdTapData sub s = .next t) : Does i s t := by
  cases answer_next h
  exact ⟨s, .unchanged i, .intro _ _ _ _ _ _⟩

theorem execWrIrqEn_does (sub : BitVec 2) {v : Word} (h : execWrIrqEn sub v s = .next t) : Does i s t := by
  cases complete_next h
  exact ⟨s, .unchanged i, .intro _ _ _ _ _ _⟩

theorem execWrTapAddr_does (sub : BitVec 2) {v : Word} (h : execWrTapAddr sub v s = .next t) : Does i s t := by
  cases complete_next h
  exact ⟨s, .unchanged i, .intro _ _ _ _ _ _⟩

theorem execWrTapData_does (sub : BitVec 2) {v : Word} (h : execWrTapData sub v s = .next t) :
    Does (.wrTapData sub v) s t := by
  unfold execWrTapData at h
  split at h
  · exact complete_does (.unchanged _) h
  next hmode =>
    cases complete_next h
    exact ⟨_, .storeTap sub v hmode, .intro _ _ _ _ _ _⟩

theorem execPushIq_does {i q : Byte} (h : execPushIq i q s = .next t) : Does (.pushIq i q) s t := by
  unfold execPushIq at h
  split at h
  next hport => exact complete_does (.pushIq i q hport) h
  · exact waitTurn_does h

theorem execPushAud_does {v : F32} (h : execPushAud v s = .next t) : Does (.pushAud v) s t := by
  unfold execPushAud at h
  split at h
  next hport => exact complete_does (.pushAud v hport) h
  · exact waitTurn_does h

theorem execPopAud_does (h : execPopAud s = .next t) : Does .popAud s t := by
  unfold execPopAud at h
  split at h
  · exact waitTurn_does h
  next hch => exact answer_does (.popAud hch) h

theorem execPopBit_does (h : execPopBit s = .next t) : Does .popBit s t := by
  unfold execPopBit at h
  split at h
  · exact waitTurn_does h
  next hch => exact answer_does (.popBit hch) h

/-! ### Every operation -/

/-- Whatever an operation answers, it has one of the ten effects. -/
theorem exec_does (h : exec i s = .next t) : Does i s t := by
  cases i with
  | rdId | rdCtrl | rdStatus | rdIrqEn | rdInCount | rdAudCount | rdSymCount | rdBitCount | rdRxFreq | rdRxPhase
  | rdRxOmega | rdRxMu | rdCsInc | rdFmdGain | rdFmdAlpha | rdTmInc | rdRxOmegaMid | rdRxOmegaRel | rdRxGainMu
  | rdRxGainOmega | rdRxAlpha | rdRxBeta | rdRxFmin | rdRxFmax | rdTapAddr | rdUnmapped => exact readReg_does h
  | rdCsDecim | rdCsNtaps | rdFmdDecim | rdFmdNtaps | rdTmDecim | rdTmNtaps | rdDdSkip => exact readHalf_does h
  | rdTapData sub => exact execRdTapData_does sub h
  | wrId | wrInCount | wrAudCount | wrSymCount | wrBitCount | wrRxFreq | wrRxPhase | wrRxOmega | wrRxMu
  | wrUnmapped => exact writeIgnored_does h
  | wrCtrl sub v => exact complete_does (.command sub v) h
  | wrStatus sub v => exact complete_does (.clearFlags sub v) h
  | wrIrqEn sub => exact execWrIrqEn_does sub h
  | wrCsInc | wrCsDecim | wrCsNtaps | wrFmdGain | wrFmdDecim | wrFmdNtaps | wrFmdAlpha | wrTmInc | wrTmDecim
  | wrTmNtaps | wrRxOmegaMid | wrRxOmegaRel | wrRxGainMu | wrRxGainOmega | wrRxAlpha | wrRxBeta | wrRxFmin
  | wrRxFmax | wrDdSkip => exact writeCfg_does h
  | wrTapAddr sub => exact execWrTapAddr_does sub h
  | wrTapData sub => exact execWrTapData_does sub h
  | pushIq => exact execPushIq_does h
  | popAud => exact execPopAud_does h
  | pushAud => exact execPushAud_does h
  | popBit => exact execPopBit_does h
  | fireMix0 => exact scheduledFire_does (u := .mix0) h
  | fireFir0 => exact scheduledFire_does (u := .fir0) h
  | fireQd => exact scheduledFire_does (u := .qd) h
  | fireFir1 => exact scheduledFire_does (u := .fir1) h
  | fireDe => exact scheduledFire_does (u := .de) h
  | fireMix1 => exact scheduledFire_does (u := .mix1) h
  | fireFir2 => exact scheduledFire_does (u := .fir2) h
  | fireRx => exact scheduledFire_does (u := .rx) h
  | fireDd => exact scheduledFire_does (u := .dd) h

/-! ### Every step -/

/-- A step is a firing the core takes by itself, a hard reset, or an operation (R5). -/
theorem step_cases (h : step s = .next t) :
    (∃ u, enabled u s = true ∧ t = fireUnit u { s with choice := s.choice + 1 }) ∨ t = hardReset (retire s) ∨
      ∃ i, exec i s = .next t := by
  unfold step at h
  split at h
  · exact .inl (coreMove_next h)
  · cases h
    exact .inr (.inl rfl)
  · split at h
    next i _ => exact .inr (.inr ⟨i, h⟩)
    · cases h

/-- A predicate of the core's state that holds at reset and is kept by the ten effects is kept by every step. -/
theorem step_keeps {P : State → Prop} (hcore : ∀ {s t}, SameCore s t → P s → P t) (hreset : P State.reset)
    (heffect : ∀ {s i e}, Effect s i e → P s → P e) (hs : P s) (h : step s = .next t) : P t := by
  rcases step_cases h with ⟨u, hu, rfl⟩ | rfl | ⟨i, hi⟩
  · exact heffect (.fire .fireMix0 u (s.choice + 1) hu) hs
  · exact hcore (.intro _ _ _ _ _ _) hreset
  · obtain ⟨e, he, hsame⟩ := exec_does hi
    exact hcore hsame (heffect he hs)

theorem SameCore.mode_eq (h : SameCore s t) : t.mode = s.mode := by cases h; rfl

theorem SameCore.cfg_eq (h : SameCore s t) : t.cfg = s.cfg := by cases h; rfl

theorem SameCore.taps_eq (h : SameCore s t) : t.taps = s.taps := by cases h; rfl

end Sys2Proof.Proofs
end

section
/-! The registers at reset, the configuration in RUN, and where STATE changes (10_state.md R33, R34, R67). -/

namespace Sys2Proof.Proofs

open Sys2Proof Sys2Proof.Machine

variable {s t : State} {i : Instr}

/-! ### The configuration in RUN -/

/-- In RUN the only command is SOFT_RESET, which keeps the configuration and the taps (R371). -/
theorem command_run_config (v : Word) (hmode : s.mode = .run) :
    (command v s).cfg = s.cfg ∧ (command v s).taps = s.taps := by
  rcases command_cases v s with ⟨_, hc⟩ | ⟨_, _, hopen, _⟩ | ⟨_, _, hc⟩
  · simp [hc]
  · exact absurd hmode hopen
  · simp [hc]

/-- Of the ten effects, the two that store want a state outside RUN. -/
theorem Effect.run_config {e : State} (h : Effect s i e) (hmode : s.mode = .run) :
    e.cfg = s.cfg ∧ e.taps = s.taps := by
  cases h with
  | command sub v => exact command_run_config v hmode
  | storeCfg _ _ hopen | storeTap _ _ hopen => exact absurd hmode hopen
  | fire _ u => simp
  | unchanged | clearFlags | pushIq | pushAud | popAud | popBit => exact ⟨rfl, rfl⟩

/-- Settles O42: the effect of the operation keeps both, and so does completing it. -/
theorem configurationIsFrozenInRun : Obligations.ConfigurationIsFrozenInRun := by
  intro i s t hmode h
  obtain ⟨e, he, hsame⟩ := exec_does h
  rw [hsame.cfg_eq, hsame.taps_eq]
  exact he.run_config hmode

/-! ### STATE -/

/-- START leads to RUN or ERROR (R143, R332). -/
theorem start_mode (s : State) : (start s).mode = .run ∨ (start s).mode = .error := by
  rcases start_cases s with ⟨_, hs⟩ | ⟨_, hs⟩ <;> simp [hs]

/-- Where a command changes STATE (R33). -/
theorem command_mode (v : Word) (s : State) :
    (command v s).mode = s.mode ∨ (v.getLsbD 1 = true ∧ (command v s).mode = .idle) ∨
      (v.getLsbD 1 = false ∧ v.getLsbD 0 = true ∧ s.mode ≠ .run ∧
        ((command v s).mode = .run ∨ (command v s).mode = .error)) := by
  rcases command_cases v s with ⟨h1, hc⟩ | ⟨h1, h0, hopen, hc⟩ | ⟨_, _, hc⟩
  · exact .inr (.inl ⟨h1, by simp [hc]⟩)
  · exact .inr (.inr ⟨h1, h0, hopen, hc ▸ start_mode s⟩)
  · exact .inl (by rw [hc])

/-- Only a command changes STATE. -/
theorem Effect.mode_eq_or {e : State} (h : Effect s i e) :
    e.mode = s.mode ∨ ∃ sub v, i = .wrCtrl sub v ∧ e = Machine.command v s := by
  cases h with
  | command sub v => exact .inr ⟨sub, v, rfl, rfl⟩
  | fire _ u => exact .inl (by simp)
  | unchanged | clearFlags | storeCfg | storeTap | pushIq | pushAud | popAud | popBit => exact .inl rfl

/-- Settles O43: the effect that changes STATE is a command's. -/
theorem stateChangesOnlyByCommand : Obligations.StateChangesOnlyByCommand := by
  intro i s t h hchange
  obtain ⟨e, he, hsame⟩ := exec_does h
  rw [hsame.mode_eq] at hchange ⊢
  obtain ⟨sub, v, rfl, rfl⟩ := he.mode_eq_or.resolve_left hchange
  exact ⟨sub, v, rfl, (command_mode v s).resolve_left hchange⟩

/-! ### The registers at reset -/

@[simp] theorem tapRead_nil (b : BitVec 2) (j : Half) : tapRead [] b j = 0#32 := by
  simp [tapRead]

/-- A read that is answered `v` at reset, in whatever state it leaves. -/
theorem readsAtReset_of_answer {i : BitVec 2 → Instr} {v : Word} (e : State)
    (h : ∀ sub, exec (i sub) State.reset = answer (.bus v) e) : Spec.ReadsAtReset i v :=
  fun sub => ⟨_, h sub, rfl⟩

/-- TAP_DATA reads the tap at `{0, 0}`, `+0` whatever `NTAPS_MAX` is. -/
theorem rdTapData_readsAtReset : Spec.ReadsAtReset .rdTapData 0#32 :=
  readsAtReset_of_answer (advanceIndex State.reset) fun sub => by
    show execRdTapData sub State.reset = _
    rw [execRdTapData, show State.reset.taps = [] from rfl, tapRead_nil]

/-- Settles O15: but for TAP_DATA, a read answers what its register holds and leaves the reset state as it is. -/
theorem registersReadTheirResetValues : Obligations.RegistersReadTheirResetValues := by
  unfold Obligations.RegistersReadTheirResetValues
  refine ⟨by decide, rfl, ?_, ?_, ?_, ?_, ?_, ?_, ?_, ?_, ?_, ?_, ?_, ?_, ?_, ?_, ?_, ?_, ?_, ?_, ?_, ?_, ?_, ?_, ?_, ?_,
    ?_, ?_, ?_, ?_, ?_, ?_, ?_, ?_, rdTapData_readsAtReset⟩ <;> exact readsAtReset_of_answer State.reset fun _ => rfl

end Sys2Proof.Proofs
end

section
/-! The structural invariant along a step. Outside RUN it says that nothing is in flight, in RUN that the channels and
the units' state are in range (`Flowing`); each effect keeps the half that applies to it. -/

namespace Sys2Proof.Proofs

open Sys2Proof Sys2Proof.Machine

/-! ### The check and the filters -/

theorem ite_toNat_le {p : Prop} [Decidable p] {k : Nat} {code rest : BitVec 4} (hcode : code.toNat ≤ k)
    (hrest : rest.toNat ≤ k) : (if p then code else rest).toNat ≤ k := by
  split
  · exact hcode
  · exact hrest

/-- START's check gives no code beyond R331's 12. -/
theorem checkConfig_le (m : Nat) (c : CfgRegs) : (checkConfig m c).toNat ≤ 12 := by
  unfold checkConfig
  iterate 12 refine ite_toNat_le (by decide) ?_
  decide

/-- A check that answers 0 has passed its first condition, whose code is not 0. -/
theorem not_and_of_ite_eq_zero {p : Prop} [Decidable p] {code rest : BitVec 4} (hcode : code ≠ 0#4)
    (h : (if p then code else rest) = 0#4) : ¬ p ∧ rest = 0#4 := by
  split at h
  · exact absurd h hcode
  next hp => exact ⟨hp, h⟩

/-- A FIR's configuration that passes the check: its decimation and its tap count are not 0 (R331 codes 1 to 6). -/
structure FirConfigured (n d : Half) : Prop where
  taps_pos : 0 < n.toNat
  decim_pos : 0 < d.toNat

theorem firConfigured_of {m : Nat} {n d : Half} (hn : ¬ badNtaps m n = true) (hd : ¬ d = 0#16) : FirConfigured n d where
  taps_pos := by
    have hne : n ≠ 0#16 := by
      rintro rfl
      simp [badNtaps] at hn
    exact Nat.pos_of_ne_zero fun h0 => hne (BitVec.eq_of_toNat_eq h0)
  decim_pos := Nat.pos_of_ne_zero fun h0 => hd (BitVec.eq_of_toNat_eq h0)

/-- The three filters of a configuration that passes the check. -/
theorem firConfigured_of_checked {m : Nat} {c : CfgRegs} (h : checkConfig m c = 0#4) :
    FirConfigured c.csNtaps c.csDecim ∧ FirConfigured c.fmdNtaps c.fmdDecim ∧ FirConfigured c.tmNtaps c.tmDecim := by
  obtain ⟨hcsDecim, h⟩ := not_and_of_ite_eq_zero (by decide) h
  obtain ⟨hcsNtaps, h⟩ := not_and_of_ite_eq_zero (by decide) h
  obtain ⟨hfmdDecim, h⟩ := not_and_of_ite_eq_zero (by decide) h
  obtain ⟨hfmdNtaps, h⟩ := not_and_of_ite_eq_zero (by decide) h
  obtain ⟨htmDecim, h⟩ := not_and_of_ite_eq_zero (by decide) h
  obtain ⟨htmNtaps, -⟩ := not_and_of_ite_eq_zero (by decide) h
  exact ⟨firConfigured_of hcsNtaps hcsDecim, firConfigured_of hfmdNtaps hfmdDecim, firConfigured_of htmNtaps htmDecim⟩

theorem firShift_length {α : Type} {n : Nat} (hn : 0 < n) {dl : List α} (hdl : dl.length ≤ n) (x : α) :
    (firShift n dl x).length = min (dl.length + 1) n := by
  simp only [firShift, List.length_cons, List.length_append, List.length_take, List.length_drop]
  omega

theorem nextPhase_lt {d : Half} (hd : 0 < d.toNat) (ph : Half) : (nextPhase d ph).toNat < d.toNat := by
  have hne : d ≠ 0#16 := by
    rintro rfl
    simp at hd
  have hmod := Nat.mod_lt (ph.toNat + 1) hd
  have hlt := d.isLt
  rw [nextPhase, if_neg hne, BitVec.toNat_ofNat, Nat.mod_eq_of_lt (by omega)]
  exact hmod

/-- A FIR as START leaves it is in range. -/
theorem firOk_start {α : Type} {n d : Half} (hc : FirConfigured n d) : FirOk (α := α) n d ⟨[], 0#16, 0#16⟩ :=
  ⟨rfl, Nat.zero_le _, hc.decim_pos⟩

/-- The fill count after a sample (R201). -/
def nextFill (n fill : Half) : Half := if fill.toNat < n.toNat then fill + 1#16 else fill

theorem nextFill_toNat {n fill : Half} (h : fill.toNat ≤ n.toNat) :
    (nextFill n fill).toNat = min (fill.toNat + 1) n.toNat := by
  have hlt := n.isLt
  unfold nextFill
  split
  · rw [BitVec.toNat_add, BitVec.toNat_ofNat]
    omega
  · omega

/-- A FIR's state after a sample (R201). -/
theorem firAccept_fst {α : Type} (zero : α) (n d : Half) (u : Fir α) (x : α) :
    (firAccept zero n d u x).1 =
      ⟨firShift n.toNat u.dl x, nextFill n u.fill, if nextFill n u.fill = n then nextPhase d u.ph else u.ph⟩ := by
  show (if nextFill n u.fill = n then _ else _ : Fir α × Option (List α)).1 = _
  split <;> rfl

/-- A FIR stays in range as it accepts a sample: the delay line and the fill count grow together up to `n`. -/
theorem firAccept_ok {α : Type} (zero : α) {n d : Half} (hc : FirConfigured n d) {u : Fir α} (h : FirOk n d u) (x : α) :
    FirOk n d (firAccept zero n d u x).1 := by
  obtain ⟨held, fill_le, phase_lt⟩ := h
  have hfill := nextFill_toNat fill_le
  have hlen := firShift_length hc.taps_pos (held.trans_le fill_le) x
  rw [firAccept_fst]
  refine ⟨hlen.trans (held ▸ hfill.symm), hfill.trans_le (min_le_right _ _), ?_⟩
  show (if nextFill n u.fill = n then nextPhase d u.ph else u.ph).toNat < d.toNat
  split
  · exact nextPhase_lt hc.decim_pos u.ph
  · exact phase_lt

/-! ### The decoder -/

theorem slice_cases (p : F32) : slice p = 0#8 ∨ slice p = 1#8 := by
  unfold slice
  split
  · exact .inr rfl
  · exact .inl rfl

/-- DD emits 0s and 1s (R108). -/
theorem ddAccept_bit {u : Dd} {z : C32} {b : Byte} (hb : b ∈ pushed (ddAccept u z).2) : b = 0#8 ∨ b = 1#8 := by
  unfold ddAccept at hb
  split_ifs at hb
  · simp [pushed] at hb
  · obtain rfl : b = slice (diffProduct z u.zp) := by simpa [pushed] using hb
    exact slice_cases _
  · simp [pushed] at hb

/-- DD never suppresses more than it had left (R313). -/
theorem ddAccept_skipLeft_le (u : Dd) (z : C32) : (ddAccept u z).1.skipLeft.toNat ≤ u.skipLeft.toNat := by
  unfold ddAccept
  split_ifs with _ hskip
  · have hne : u.skipLeft.toNat ≠ 0 := fun h0 => hskip (BitVec.eq_of_toNat_eq h0)
    have hlt := u.skipLeft.isLt
    show (u.skipLeft - 1#16).toNat ≤ _
    rw [BitVec.toNat_sub, BitVec.toNat_ofNat]
    omega
  · exact le_rfl
  · exact le_rfl

/-! ### The two halves of the invariant -/

/-- The clauses about the tap memory. -/
def TapsOk (m : Memory) : Prop :=
  m.wf ∧ ∀ c ∈ m, ∃ b i, b ≤ 2 ∧ i < Config.ntapsMax ∧ c.1 = tapAddress b i

theorem tapsOk_tapWrite {m : Memory} (h : TapsOk m) (b : BitVec 2) (i : Half) (v : F32) : TapsOk (tapWrite m b i v) := by
  obtain ⟨hwf, hexist⟩ := h
  refine ⟨tapWrite_wf b i v hwf, fun c hc => ?_⟩
  unfold tapWrite at hc
  split at hc
  next hsel =>
    rcases mem_memWrite hc with rfl | hold
    · simp only [tapSelected, Bool.and_eq_true, decide_eq_true_eq] at hsel
      exact ⟨b.toNat, i.toNat, hsel.1, hsel.2, rfl⟩
    · exact hexist c hold
  · exact hexist c hc

/-- Nothing is in flight and the units are as reset left them (R336, R372). -/
def Quiet (s : State) : Prop :=
  s.ch = Channels.empty ∧ s.dp = Datapath.cleared ∧ s.cnt = ⟨0#32, 0#32, 0#32, 0#32⟩ ∧
    s.fsat = false ∧ s.osat = false ∧ s.nans = false

/-- The clauses about the channels and the units in RUN, under the configuration `g`. -/
structure Flowing (g : CfgRegs) (c : Channels) (d : Datapath) : Prop where
  bounded : ∀ n ∈ channelLengths c, n ≤ Config.fifoDepth
  bits : ∀ b ∈ c.bit, b = 0#8 ∨ b = 1#8
  fir0 : FirOk g.csNtaps g.csDecim d.fir0
  fir1 : FirOk g.fmdNtaps g.fmdDecim d.fir1
  fir2 : FirOk g.tmNtaps g.tmDecim d.fir2
  skip_le : d.dd.skipLeft.toNat ≤ g.ddSkip.toNat

variable {s t : State}

theorem inv_tapsOk (h : Inv s) : TapsOk s.taps := ⟨h.taps_wf, h.taps_exist⟩

theorem inv_flowing (h : Inv s) (hmode : s.mode = .run) : Flowing s.cfg s.ch s.dp :=
  ⟨h.bounded, h.bits, h.fir0 hmode, h.fir1 hmode, h.fir2 hmode, h.skip_le⟩

theorem channelLengths_empty {n : Nat} (hn : n ∈ channelLengths Channels.empty) : n = 0 := by
  simpa [channelLengths, Channels.empty] using hn

theorem inv_of_not_run (hmode : s.mode ≠ .run) (htaps : TapsOk s.taps) (hquiet : Quiet s)
    (herr : if s.mode = .error then 1 ≤ s.errCode.toNat ∧ s.errCode.toNat ≤ 12 else s.errCode = 0#4) : Inv s := by
  have ⟨hch, hdp, _⟩ := hquiet
  obtain ⟨hwf, hexist⟩ := htaps
  exact
    { taps_wf := hwf
      taps_exist := hexist
      bounded := fun n hn => by
        rw [hch] at hn
        simp [channelLengths_empty hn]
      bits := by simp [hch, Channels.empty]
      quiet := fun _ => hquiet
      checked := fun h => absurd h hmode
      err_code := herr
      fir0 := fun h => absurd h hmode
      fir1 := fun h => absurd h hmode
      fir2 := fun h => absurd h hmode
      skip_le := by simp [hdp, Datapath.cleared] }

theorem inv_of_run (hmode : s.mode = .run) (htaps : TapsOk s.taps) (hcheck : checkConfig Config.ntapsMax s.cfg = 0#4)
    (herr : s.errCode = 0#4) (hflow : Flowing s.cfg s.ch s.dp) : Inv s where
  taps_wf := htaps.1
  taps_exist := htaps.2
  bounded := hflow.bounded
  bits := hflow.bits
  quiet := fun h => absurd hmode h
  checked := fun _ => hcheck
  err_code := by simpa [hmode] using herr
  fir0 := fun _ => hflow.fir0
  fir1 := fun _ => hflow.fir1
  fir2 := fun _ => hflow.fir2
  skip_le := hflow.skip_le

theorem inv_errCode_run (h : Inv s) (hmode : s.mode = .run) : s.errCode = 0#4 := by
  simpa [hmode] using h.err_code

/-- What a state keeps in RUN it may change in its channels, its units' state, its counters and its flags. -/
theorem inv_of_flowing (h : Inv s) (hmode : s.mode = .run) (hm : t.mode = s.mode) (he : t.errCode = s.errCode)
    (hc : t.cfg = s.cfg) (ht : t.taps = s.taps) (hflow : Flowing s.cfg t.ch t.dp) : Inv t :=
  inv_of_run (hm.trans hmode) (ht ▸ inv_tapsOk h) (hc ▸ h.checked hmode) (he.trans (inv_errCode_run h hmode))
    (hc ▸ hflow)

/-- The invariant reads only the core's fields. -/
theorem inv_sameCore (hsame : SameCore s t) (h : Inv s) : Inv t := by
  cases hsame
  obtain ⟨hwf, hexist, hbounded, hbits, hquiet, hcheck, herr, hf0, hf1, hf2, hskip⟩ := h
  exact ⟨hwf, hexist, hbounded, hbits, hquiet, hcheck, herr, hf0, hf1, hf2, hskip⟩

theorem inv_reset : Inv State.reset :=
  inv_of_not_run (by decide) ⟨wf_nil, by simp [State.reset]⟩ ⟨rfl, rfl, rfl, rfl, rfl, rfl⟩ (by decide)

/-! ### The firings -/

theorem channelLengths_le_iff {c : Channels} {k : Nat} :
    (∀ n ∈ channelLengths c, n ≤ k) ↔
      c.iq.length ≤ k ∧ c.mx0.length ≤ k ∧ c.f0.length ≤ k ∧ c.qd.length ≤ k ∧ c.f1.length ≤ k ∧ c.aout.length ≤ k ∧
        c.ain.length ≤ k ∧ c.mx1.length ≤ k ∧ c.f2.length ≤ k ∧ c.rx.length ≤ k ∧ c.bit.length ≤ k := by
  simp [channelLengths]

/-- A firing that may emit nothing pushes at most one element. -/
theorem add_length_pushed_le {α : Type} {n k : Nat} (h : n < k) (out : Option α) : n + (pushed out).length ≤ k := by
  cases out with
  | none => exact h.le
  | some x => exact h

theorem length_le_of_cons {α : Type} {l rest : List α} {x : α} {k : Nat} (h : l = x :: rest) (hl : l.length ≤ k) :
    rest.length ≤ k := by
  rw [h, List.length_cons] at hl
  omega

/-- An enabled firing takes an element from one channel and adds at most one to another that has room (R77, R78). -/
theorem fireUnit_bounded {u : UnitId} (hu : enabled u s = true)
    (h : ∀ n ∈ channelLengths s.ch, n ≤ Config.fifoDepth) :
    ∀ n ∈ channelLengths (fireUnit u s).ch, n ≤ Config.fifoDepth := by
  obtain ⟨-, hin, hroom⟩ := enabled_iff.1 hu
  rw [channelLengths_le_iff] at h ⊢
  cases u with
  | mix0 | de | mix1 =>
    obtain ⟨x, rest, hc⟩ := List.exists_cons_of_length_pos hin
    simp only [outLength] at hroom
    simp [fireUnit, fireMix0, fireDe, fireMix1, hc] at h ⊢
    omega
  | fir0 | qd | fir1 | fir2 | rx | dd =>
    obtain ⟨x, rest, hc⟩ := List.exists_cons_of_length_pos hin
    simp only [outLength] at hroom
    simp [fireUnit, fireFir0, fireQd, fireFir1, fireFir2, fireRx, fireDd, hc, add_length_pushed_le hroom] at h ⊢
    omega

theorem fireUnit_flowing {u : UnitId} (hu : enabled u s = true) (hcheck : checkConfig Config.ntapsMax s.cfg = 0#4)
    (h : Flowing s.cfg s.ch s.dp) : Flowing s.cfg (fireUnit u s).ch (fireUnit u s).dp := by
  have hbounded := fireUnit_bounded hu h.bounded
  obtain ⟨hcs, hfmd, htm⟩ := firConfigured_of_checked hcheck
  obtain ⟨-, hin, -⟩ := enabled_iff.1 hu
  cases u with
  | mix0 | qd | de | mix1 | rx =>
    obtain ⟨x, rest, hc⟩ := List.exists_cons_of_length_pos hin
    simp only [fireUnit, fireMix0, fireQd, fireDe, fireMix1, fireRx, hc] at hbounded ⊢
    exact { h with bounded := hbounded }
  | fir0 =>
    obtain ⟨x, rest, hc⟩ := List.exists_cons_of_length_pos hin
    simp only [fireUnit, fireFir0, hc] at hbounded ⊢
    exact { h with bounded := hbounded, fir0 := firAccept_ok _ hcs h.fir0 x }
  | fir1 =>
    obtain ⟨x, rest, hc⟩ := List.exists_cons_of_length_pos hin
    simp only [fireUnit, fireFir1, hc] at hbounded ⊢
    exact { h with bounded := hbounded, fir1 := firAccept_ok _ hfmd h.fir1 x }
  | fir2 =>
    obtain ⟨x, rest, hc⟩ := List.exists_cons_of_length_pos hin
    simp only [fireUnit, fireFir2, hc] at hbounded ⊢
    exact { h with bounded := hbounded, fir2 := firAccept_ok _ htm h.fir2 x }
  | dd =>
    obtain ⟨x, rest, hc⟩ := List.exists_cons_of_length_pos hin
    simp only [fireUnit, fireDd, hc] at hbounded ⊢
    exact
      { h with
        bounded := hbounded
        bits := fun b hb => (List.mem_append.1 hb).elim (h.bits b) ddAccept_bit
        skip_le := (ddAccept_skipLeft_le s.dp.dd x).trans h.skip_le }

theorem inv_fireUnit {u : UnitId} (hu : enabled u s = true) (h : Inv s) : Inv (fireUnit u s) := by
  obtain ⟨hmode, -⟩ := enabled_iff.1 hu
  exact inv_of_flowing h hmode (by simp) (by simp) (by simp) (by simp)
    (fireUnit_flowing hu (h.checked hmode) (inv_flowing h hmode))

/-! ### The commands -/

theorem flowing_start {g : CfgRegs} (hcheck : checkConfig Config.ntapsMax g = 0#4) :
    Flowing g Channels.empty (startDatapath g) := by
  obtain ⟨hcs, hfmd, htm⟩ := firConfigured_of_checked hcheck
  exact
    { bounded := fun n hn => by simp [channelLengths_empty hn]
      bits := by simp [Channels.empty]
      fir0 := firOk_start hcs
      fir1 := firOk_start hfmd
      fir2 := firOk_start htm
      skip_le := le_rfl }

theorem inv_softReset (h : Inv s) : Inv (softReset s) :=
  have htaps := inv_tapsOk h
  inv_of_not_run (by simp) htaps ⟨rfl, rfl, rfl, rfl, rfl, rfl⟩ rfl

/-- START from outside RUN: ERROR with a code of R331, or RUN with everything at its START column. -/
theorem inv_start (hmode : s.mode ≠ .run) (h : Inv s) : Inv (start s) := by
  have htaps := inv_tapsOk h
  rcases start_cases s with ⟨hcode, hs⟩ | ⟨hcheck, hs⟩ <;> rw [hs]
  · have hpos : (checkConfig Config.ntapsMax s.cfg).toNat ≠ 0 := fun h0 => hcode (BitVec.eq_of_toNat_eq h0)
    refine inv_of_not_run (by simp) htaps (h.quiet hmode) ?_
    simpa using ⟨Nat.pos_of_ne_zero hpos, checkConfig_le _ s.cfg⟩
  · exact inv_of_run rfl htaps hcheck rfl (flowing_start hcheck)

theorem inv_command (v : Word) (h : Inv s) : Inv (command v s) := by
  rcases command_cases v s with ⟨_, hc⟩ | ⟨_, _, hmode, hc⟩ | ⟨_, _, hc⟩ <;> rw [hc]
  · exact inv_softReset h
  · exact inv_start hmode h
  · exact h

/-! ### The other effects -/

theorem inv_clearFlags (v : Word) (h : Inv s) : Inv (clearFlags s v) := by
  by_cases hmode : s.mode = .run
  · exact inv_of_flowing h hmode rfl rfl rfl rfl (inv_flowing h hmode)
  · have htaps := inv_tapsOk h
    obtain ⟨hch, hdp, hcnt, hf, ho, hn⟩ := h.quiet hmode
    exact inv_of_not_run hmode htaps ⟨hch, hdp, hcnt, by simp [hf], by simp [ho], by simp [hn]⟩ h.err_code

theorem portAccepts_iff {held : Nat} : portAccepts s held = true ↔ s.mode = .run ∧ held < Config.fifoDepth := by
  simp [portAccepts, hasSpace]

/-- Outside RUN there is nothing to pop. -/
theorem run_of_ch_ne_empty (h : Inv s) (hch : s.ch ≠ Channels.empty) : s.mode = .run := by
  by_contra hmode
  exact hch (h.quiet hmode).1

theorem inv_effect {i : Instr} {e : State} (heffect : Effect s i e) (h : Inv s) : Inv e := by
  have htaps := inv_tapsOk h
  cases heffect with
  | unchanged => exact h
  | command _ v => exact inv_command v h
  | clearFlags _ v => exact inv_clearFlags v h
  | storeCfg _ c hmode => exact inv_of_not_run hmode htaps (h.quiet hmode) h.err_code
  | storeTap _ v hmode =>
    exact inv_of_not_run hmode (tapsOk_tapWrite htaps _ _ v) (h.quiet hmode) h.err_code
  | pushIq _ _ hport =>
    obtain ⟨hmode, hroom⟩ := portAccepts_iff.1 hport
    have hflow := inv_flowing h hmode
    obtain ⟨-, hrest⟩ := channelLengths_le_iff.1 hflow.bounded
    exact inv_of_flowing h hmode rfl rfl rfl rfl
      { hflow with bounded := channelLengths_le_iff.2 ⟨by simpa using hroom, hrest⟩ }
  | pushAud _ hport =>
    obtain ⟨hmode, hroom⟩ := portAccepts_iff.1 hport
    have hflow := inv_flowing h hmode
    obtain ⟨hiq, hmx0, hf0, hqd, hf1, haout, -, hrest⟩ := channelLengths_le_iff.1 hflow.bounded
    exact inv_of_flowing h hmode rfl rfl rfl rfl
      { hflow with
        bounded := channelLengths_le_iff.2 ⟨hiq, hmx0, hf0, hqd, hf1, haout, by simpa using hroom, hrest⟩ }
  | popAud hch =>
    have hmode := run_of_ch_ne_empty h fun hempty => by simp [hempty, Channels.empty] at hch
    have hflow := inv_flowing h hmode
    obtain ⟨hiq, hmx0, hf0, hqd, hf1, haout, hrest⟩ := channelLengths_le_iff.1 hflow.bounded
    exact inv_of_flowing h hmode rfl rfl rfl rfl
      { hflow with
        bounded := channelLengths_le_iff.2 ⟨hiq, hmx0, hf0, hqd, hf1, length_le_of_cons hch haout, hrest⟩ }
  | popBit hch =>
    have hmode := run_of_ch_ne_empty h fun hempty => by simp [hempty, Channels.empty] at hch
    have hflow := inv_flowing h hmode
    obtain ⟨hiq, hmx0, hf0, hqd, hf1, haout, hain, hmx1, hf2, hrx, hbit⟩ := channelLengths_le_iff.1 hflow.bounded
    exact inv_of_flowing h hmode rfl rfl rfl rfl
      { hflow with
        bounded := channelLengths_le_iff.2
          ⟨hiq, hmx0, hf0, hqd, hf1, haout, hain, hmx1, hf2, hrx, length_le_of_cons hch hbit⟩
        bits := fun b hb => hflow.bits b (by rw [hch]; exact List.mem_cons_of_mem _ hb) }
  | fire _ u choice hu => exact inv_fireUnit hu (inv_sameCore (.intro _ _ _ _ _ choice) h)

/-- Settles O35: the invariant holds at reset, and each of the ten effects keeps it. -/
theorem everyStepKeepsTheInvariant : Obligations.EveryStepKeepsTheInvariant :=
  fun _ _ hs h => step_keeps inv_sameCore inv_reset inv_effect hs h

end Sys2Proof.Proofs
end

section
/-! The core as a network (20_memory.md R77, R80): a unit takes from one channel, appends to one other, and keeps a part of
the state that no other unit touches; its firing depends on the configuration, the taps, its own part and the oldest
element of its input. From this follows that two enabled firings commute. -/

namespace Sys2Proof.Proofs

open Sys2Proof Sys2Proof.Machine

/-- The eleven channels of R65, by name. -/
inductive Chan where
  | iq | mx0 | f0 | qd | f1 | aout | ain | mx1 | f2 | rx | bit
deriving DecidableEq

/-- What the elements of a channel are (R65). -/
abbrev Chan.Elem : Chan → Type
  | .iq => Half
  | .qd | .f1 | .aout | .ain => F32
  | .mx0 | .f0 | .mx1 | .f2 | .rx => C32
  | .bit => Byte

/-- What a channel holds, oldest element first. -/
def held (c : Channels) : (k : Chan) → List k.Elem
  | .iq => c.iq
  | .mx0 => c.mx0
  | .f0 => c.f0
  | .qd => c.qd
  | .f1 => c.f1
  | .aout => c.aout
  | .ain => c.ain
  | .mx1 => c.mx1
  | .f2 => c.f2
  | .rx => c.rx
  | .bit => c.bit

/-- `in_U` (R77). -/
def inOf : UnitId → Chan
  | .mix0 => .iq
  | .fir0 => .mx0
  | .qd => .f0
  | .fir1 => .qd
  | .de => .f1
  | .mix1 => .ain
  | .fir2 => .mx1
  | .rx => .f2
  | .dd => .rx

/-- `out_U` (R77). -/
def outOf : UnitId → Chan
  | .mix0 => .mx0
  | .fir0 => .f0
  | .qd => .qd
  | .fir1 => .f1
  | .de => .aout
  | .mix1 => .mx1
  | .fir2 => .f2
  | .rx => .rx
  | .dd => .bit

/-- What a unit alone writes beside its channels: its datapath state (R64), its counter (R40) and, for RX, the sticky
flags (R66). -/
abbrev Owned : UnitId → Type
  | .mix0 | .mix1 => Word
  | .fir0 | .fir2 => Fir C32
  | .qd => Qd
  | .fir1 => Fir F32
  | .de => F32 × Word
  | .rx => Rx × Word × Bool × Bool × Bool
  | .dd => Dd × Word

/-- What each unit owns in a state. -/
def owned (s : State) : (u : UnitId) → Owned u
  | .mix0 => s.dp.mix0Acc
  | .fir0 => s.dp.fir0
  | .qd => s.dp.qd
  | .fir1 => s.dp.fir1
  | .de => (s.dp.deY, s.cnt.audCount)
  | .mix1 => s.dp.mix1Acc
  | .fir2 => s.dp.fir2
  | .rx => (s.dp.rx, s.cnt.symCount, s.fsat, s.osat, s.nans)
  | .dd => (s.dp.dd, s.cnt.bitCount)

/-- What no firing changes. -/
def fixedPart (s : State) :=
  ((s.mode, s.errCode, s.irqEn, s.cfg), (s.cnt.inCount, s.tapBank, s.tapIndex, s.taps), s.pending, s.ret, s.choice)

/-! ### The state as channels, owned parts and the rest -/

theorem inOf_injective : Function.Injective inOf := by
  intro u v h
  cases u <;> cases v <;> trivial

theorem outOf_injective : Function.Injective outOf := by
  intro u v h
  cases u <;> cases v <;> trivial

variable {s t : State} {u v : UnitId} {k : Chan}

theorem inLength_eq (u : UnitId) (c : Channels) : inLength u c = (held c (inOf u)).length := by cases u <;> rfl

theorem outLength_eq (u : UnitId) (c : Channels) : outLength u c = (held c (outOf u)).length := by cases u <;> rfl

/-- The channels, the owned parts and the fixed part make up the whole state (R30). -/
theorem state_ext (hfixed : fixedPart s = fixedPart t) (hheld : ∀ k, held s.ch k = held t.ch k)
    (howned : ∀ u, owned s u = owned t u) : s = t := by
  obtain ⟨_, _, _, _, _, _, ⟨⟩, _, _, _, _, ⟨⟩, ⟨⟩, _, _, _⟩ := s
  obtain ⟨_, _, _, _, _, _, ⟨⟩, _, _, _, _, ⟨⟩, ⟨⟩, _, _, _⟩ := t
  cases hfixed
  cases hheld .iq
  cases hheld .mx0
  cases hheld .f0
  cases hheld .qd
  cases hheld .f1
  cases hheld .aout
  cases hheld .ain
  cases hheld .mx1
  cases hheld .f2
  cases hheld .rx
  cases hheld .bit
  cases howned .mix0
  cases howned .fir0
  cases howned .qd
  cases howned .fir1
  cases howned .de
  cases howned .mix1
  cases howned .fir2
  cases howned .rx
  cases howned .dd
  rfl

/-! ### What a firing leaves alone, and what it depends on -/

theorem fireUnit_of_empty (h : held s.ch (inOf u) = []) : fireUnit u s = s := by
  cases u <;> dsimp only [inOf, held] at h <;>
    simp only [fireUnit, fireMix0, fireFir0, fireQd, fireFir1, fireDe, fireMix1, fireFir2, fireRx, fireDd, h]

/-- The frame of a firing of `u` from `s` to `t`: the oldest element is taken from `in_U`, and beside that only `out_U` and
what `u` owns may differ. -/
structure FiringFrame (u : UnitId) (s t : State) : Prop where
  fixed_eq : fixedPart t = fixedPart s
  held_in : held t.ch (inOf u) = (held s.ch (inOf u)).tail
  held_other : ∀ k, k ≠ inOf u → k ≠ outOf u → held t.ch k = held s.ch k
  owned_other : ∀ v, v ≠ u → owned t v = owned s v

theorem fireUnit_frame (u : UnitId) (s : State) : FiringFrame u s (fireUnit u s) := by
  cases h : held s.ch (inOf u) with
  | nil =>
    rw [fireUnit_of_empty h]
    exact ⟨rfl, by simp [h], fun _ _ _ => rfl, fun _ _ => rfl⟩
  | cons x rest =>
    cases u
    all_goals
      dsimp only [inOf, held] at h
      simp only [fireUnit, fireMix0, fireFir0, fireQd, fireFir1, fireDe, fireMix1, fireFir2, fireRx, fireDd, h]
      refine ⟨rfl, (congrArg List.tail h).symm, fun k hin hout => ?_, fun v hne => ?_⟩
      · cases k <;> trivial
      · cases v <;> trivial

/-- `s` and `t` agree on what the firing of `u` reads: the configuration, the taps, what `u` owns and the oldest element of
its input. -/
structure Agrees (u : UnitId) (s t : State) : Prop where
  cfg_eq : s.cfg = t.cfg
  taps_eq : s.taps = t.taps
  owned_eq : owned s u = owned t u
  head_eq : (held s.ch (inOf u)).head? = (held t.ch (inOf u)).head?

/-- A firing's effect is a function of what it reads: the same owned part after it, the same elements appended to its
output. -/
theorem fireUnit_local (h : Agrees u s t) :
    owned (fireUnit u s) u = owned (fireUnit u t) u ∧
      ∃ out, held (fireUnit u s).ch (outOf u) = held s.ch (outOf u) ++ out ∧
        held (fireUnit u t).ch (outOf u) = held t.ch (outOf u) ++ out := by
  obtain ⟨hcfg, htaps, howned, hhead⟩ := h
  cases ht : held t.ch (inOf u) with
  | nil =>
    have hs : held s.ch (inOf u) = [] := by simpa [ht] using hhead
    rw [fireUnit_of_empty hs, fireUnit_of_empty ht]
    exact ⟨howned, [], by simp⟩
  | cons x rest =>
    obtain ⟨rest', hs⟩ : ∃ rest', held s.ch (inOf u) = x :: rest' := by
      simpa [ht, List.head?_eq_some_iff] using hhead
    cases u
    all_goals
      dsimp only [inOf, held] at hs ht
      simp only [owned, Prod.mk.injEq] at howned
      simp only [fireUnit, fireMix0, fireFir0, fireQd, fireFir1, fireDe, fireMix1, fireFir2, fireRx, fireDd, raiseFlags,
        owned, held, outOf, hs, ht, hcfg, htaps, howned]
      exact ⟨trivial, _, rfl, rfl⟩

/-- The same for every channel but the input, which is the only one a firing takes from. -/
theorem fireUnit_held_append (h : Agrees u s t) (hin : k ≠ inOf u) :
    ∃ out, held (fireUnit u s).ch k = held s.ch k ++ out ∧ held (fireUnit u t).ch k = held t.ch k ++ out ∧
      (k ≠ outOf u → out = []) := by
  by_cases hout : k = outOf u
  · subst hout
    obtain ⟨-, out, hs, ht⟩ := fireUnit_local h
    exact ⟨out, hs, ht, fun hne => absurd rfl hne⟩
  · refine ⟨[], ?_, ?_, fun _ => rfl⟩ <;> rw [(fireUnit_frame u _).held_other k hin hout, List.append_nil]

theorem Agrees.refl (u : UnitId) (s : State) : Agrees u s s := ⟨rfl, rfl, rfl, rfl⟩

/-- Another unit's firing takes nothing from what `v` reads: at most it appends to `v`'s input, behind its head. -/
theorem agrees_fireUnit (hne : v ≠ u) (hv : held s.ch (inOf v) ≠ []) : Agrees v s (fireUnit u s) := by
  obtain ⟨out, happend, -⟩ := fireUnit_held_append (.refl u s) (inOf_injective.ne hne)
  refine ⟨by simp, by simp, ((fireUnit_frame u s).owned_other v hne).symm, ?_⟩
  rw [happend, List.head?_append_of_ne_nil _ hv]

/-! ### Two firings -/

theorem fireUnit_comm_held_in (hne : u ≠ v) (hu : held s.ch (inOf u) ≠ []) (hv : held s.ch (inOf v) ≠ []) :
    held (fireUnit v (fireUnit u s)).ch (inOf u) = held (fireUnit u (fireUnit v s)).ch (inOf u) := by
  obtain ⟨out, hs, hfired, -⟩ := fireUnit_held_append (agrees_fireUnit hne.symm hv) (inOf_injective.ne hne)
  rw [hfired, (fireUnit_frame u _).held_in, (fireUnit_frame u _).held_in, hs, List.tail_append_of_ne_nil hu]

theorem fireUnit_comm_owned (hne : u ≠ v) (hu : held s.ch (inOf u) ≠ []) :
    owned (fireUnit v (fireUnit u s)) u = owned (fireUnit u (fireUnit v s)) u := by
  rw [(fireUnit_frame v _).owned_other u hne, (fireUnit_local (agrees_fireUnit hne hu)).1]

/-- Each channel has one unit that takes from it and one that appends to it, so two firings meet at most in a channel that
one takes from at the head and the other appends to at the end (R80). -/
theorem fireUnit_comm (hne : u ≠ v) (hu : held s.ch (inOf u) ≠ []) (hv : held s.ch (inOf v) ≠ []) :
    fireUnit v (fireUnit u s) = fireUnit u (fireUnit v s) := by
  refine state_ext ?_ (fun k => ?_) (fun w => ?_)
  · simp only [(fireUnit_frame _ _).fixed_eq]
  · by_cases hku : k = inOf u
    · subst hku
      exact fireUnit_comm_held_in hne hu hv
    by_cases hkv : k = inOf v
    · subst hkv
      exact (fireUnit_comm_held_in hne.symm hv hu).symm
    obtain ⟨outu, hsu, hvu, hu_nil⟩ := fireUnit_held_append (agrees_fireUnit hne hu) hku
    obtain ⟨outv, hsv, huv, hv_nil⟩ := fireUnit_held_append (agrees_fireUnit hne.symm hv) hkv
    rw [huv, hvu, hsu, hsv]
    by_cases hk : k = outOf u
    · simp [hv_nil (hk ▸ outOf_injective.ne hne)]
    · simp [hu_nil hk]
  · by_cases hwu : w = u
    · subst hwu
      exact fireUnit_comm_owned hne hu
    by_cases hwv : w = v
    · subst hwv
      exact (fireUnit_comm_owned hne.symm hv).symm
    simp only [(fireUnit_frame _ _).owned_other w hwu, (fireUnit_frame _ _).owned_other w hwv]

theorem held_in_ne_nil (hu : enabled u s = true) : held s.ch (inOf u) ≠ [] := by
  obtain ⟨-, hin, -⟩ := enabled_iff.1 hu
  rw [inLength_eq] at hin
  exact List.ne_nil_of_length_pos hin

theorem enabled_fireUnit (hne : u ≠ v) (hv : enabled v s = true) : enabled v (fireUnit u s) = true := by
  obtain ⟨hmode, hin, hroom⟩ := enabled_iff.1 hv
  rw [inLength_eq] at hin
  rw [outLength_eq] at hroom
  refine enabled_iff.2 ⟨by simpa using hmode, ?_, ?_⟩
  · obtain ⟨out, happend, -⟩ := fireUnit_held_append (.refl u s) (inOf_injective.ne hne.symm)
    rw [inLength_eq, happend, List.length_append]
    omega
  · rw [outLength_eq]
    by_cases htake : outOf v = inOf u
    · rw [htake] at hroom ⊢
      rw [(fireUnit_frame u s).held_in, List.length_tail]
      omega
    · rwa [(fireUnit_frame u s).held_other _ htake (outOf_injective.ne hne.symm)]

/-- Settles O38: firings are local, and no two units take from or append to the same channel. -/
theorem enabledFiringsCommute : Obligations.EnabledFiringsCommute := fun _ _ _ hne hu hv =>
  ⟨enabled_fireUnit hne hv, enabled_fireUnit hne.symm hu, fireUnit_comm hne (held_in_ne_nil hu) (held_in_ne_nil hv)⟩

end Sys2Proof.Proofs
end

section
/-! The FM half and the tone half (20_memory.md R77, 43_fm_demodulator.md R238): in the network, the units of a half use the
channels of that half only. -/

namespace Sys2Proof.Proofs

open Sys2Proof Sys2Proof.Machine

variable {s t : State} {u : UnitId}

/-- The channels of the FM half (R77). -/
def fmChans : List Chan := [.iq, .mx0, .f0, .qd, .f1, .aout]

theorem fmHalf_eq_iff :
    Spec.fmHalf s = Spec.fmHalf t ↔ (s.mode = t.mode ∧ s.cfg = t.cfg ∧ s.taps = t.taps) ∧
      (∀ k ∈ fmChans, held s.ch k = held t.ch k) ∧ ∀ u ∈ Spec.fmUnits, owned s u = owned t u := by
  simp [Spec.fmHalf, fmChans, Spec.fmUnits, held, owned, and_assoc]

theorem toneHalf_eq (hheld : ∀ k ∉ fmChans, held s.ch k = held t.ch k)
    (howned : ∀ u ∉ Spec.fmUnits, owned s u = owned t u) : Spec.toneHalf s = Spec.toneHalf t := by
  have hrx := howned .rx (by decide)
  have hdd := howned .dd (by decide)
  simp only [owned, Prod.mk.injEq] at hrx hdd
  obtain ⟨hrxState, hsymCount, hflags⟩ := hrx
  obtain ⟨hddState, hbitCount⟩ := hdd
  simp only [Spec.toneHalf, Prod.mk.injEq]
  exact ⟨⟨hheld .ain (by decide), hheld .mx1 (by decide), hheld .f2 (by decide), hheld .rx (by decide),
      hheld .bit (by decide)⟩,
    ⟨howned .mix1 (by decide), howned .fir2 (by decide), hrxState, hddState⟩, ⟨hsymCount, hbitCount⟩, hflags⟩

theorem fmUnit_channels (hu : u ∈ Spec.fmUnits) : inOf u ∈ fmChans ∧ outOf u ∈ fmChans := by
  revert hu
  cases u <;> decide

/-- Settles O45: the units of the FM half read and write channels and owned parts of that half only. -/
theorem fmHalfIgnoresTheToneHalf : Obligations.FmHalfIgnoresTheToneHalf := by
  intro u s t hu hhalf
  obtain ⟨hin, hout⟩ := fmUnit_channels hu
  obtain ⟨⟨hmode, hcfg, htaps⟩, hheld, howned⟩ := fmHalf_eq_iff.1 hhalf
  have hagree : Agrees u s t := ⟨hcfg, htaps, howned u hu, by rw [hheld _ hin]⟩
  constructor
  · refine fmHalf_eq_iff.2 ⟨by simp [hmode, hcfg, htaps], fun k hk => ?_, fun w hw => ?_⟩
    · by_cases hkin : k = inOf u
      · subst hkin
        rw [(fireUnit_frame u s).held_in, (fireUnit_frame u t).held_in, hheld _ hin]
      · obtain ⟨out, hs, ht, -⟩ := fireUnit_held_append hagree hkin
        rw [hs, ht, hheld k hk]
    · by_cases hwu : w = u
      · subst hwu
        exact (fireUnit_local hagree).1
      · rw [(fireUnit_frame u s).owned_other w hwu, (fireUnit_frame u t).owned_other w hwu, howned w hw]
  · exact toneHalf_eq
      (fun k hk => (fireUnit_frame u s).held_other k (fun h => hk (h ▸ hin)) (fun h => hk (h ▸ hout)))
      (fun w hw => (fireUnit_frame u s).owned_other w fun h => hw (h ▸ hu))

end Sys2Proof.Proofs
end

section
/-! What moves and when (20_memory.md R78, R79; notes/assumptions/2): steps that wait, the core's own move, BUSY, and that the
core left to itself comes to rest. -/

namespace Sys2Proof.Proofs

open Sys2Proof Sys2Proof.Machine

variable {s : State} {u : UnitId}

/-! ### Where a step is not ready -/

theorem enabled_iff_fireable : enabled u s = true ↔ Spec.Fireable u s := by
  rw [enabled_iff]
  cases u <;> exact Iff.rfl

theorem exec_firingOf (u : UnitId) (s : State) :
    exec (Spec.firingOf u) s = scheduledFire u (fireUnit u s) s := by
  cases u <;> rfl

theorem exec_firingOf_of_fireable (h : Spec.Fireable u s) :
    exec (Spec.firingOf u) s = .next (Spec.done (fireUnit u s)) :=
  (exec_firingOf u s).trans (scheduledFire_enabled (enabled_iff_fireable.2 h))

theorem exec_firingOf_waits (h : ¬ Spec.Fireable u s) : exec (Spec.firingOf u) s = coreMove s := by
  rw [exec_firingOf, scheduledFire, if_neg (mt enabled_iff_fireable.1 h), waitTurn]

theorem not_portAccepts {n : Nat} (h : s.mode ≠ .run ∨ Config.fifoDepth ≤ n) : ¬ portAccepts s n = true := by
  rw [portAccepts_iff, not_and_or, Nat.not_lt]
  exact h

theorem execPushIq_waits (h : s.mode ≠ .run ∨ Config.fifoDepth ≤ s.ch.iq.length) (i q : Byte) :
    execPushIq i q s = coreMove s := if_neg (not_portAccepts h)

theorem execPushAud_waits (h : s.mode ≠ .run ∨ Config.fifoDepth ≤ s.ch.ain.length) (v : F32) :
    execPushAud v s = coreMove s := if_neg (not_portAccepts h)

theorem execPopAud_waits (h : s.ch.aout = []) : execPopAud s = coreMove s := by
  simp only [execPopAud, h, waitTurn]

theorem execPopBit_waits (h : s.ch.bit = []) : execPopBit s = coreMove s := by
  simp only [execPopBit, h, waitTurn]

/-- Settles O27: each of the thirteen steps falls to its waiting branch. -/
theorem notReadyStepsLeaveTheMoveToTheCore : Obligations.NotReadyStepsLeaveTheMoveToTheCore := fun _ =>
  ⟨exec_firingOf_waits (u := .mix0), exec_firingOf_waits (u := .fir0), exec_firingOf_waits (u := .qd),
    exec_firingOf_waits (u := .fir1), exec_firingOf_waits (u := .de), exec_firingOf_waits (u := .mix1),
    exec_firingOf_waits (u := .fir2), exec_firingOf_waits (u := .rx), exec_firingOf_waits (u := .dd),
    execPushIq_waits, execPushAud_waits, execPopAud_waits, execPopBit_waits⟩

/-! ### The core's own move -/

theorem coreMove_of_none (h : ∀ u, enabled u s = false) : coreMove s = .fault .noStep := by
  rcases coreMove_cases s with ⟨-, hc⟩ | ⟨u, hu, -⟩
  · exact hc
  · simp [h u] at hu

theorem coreMove_of_enabled (hu : enabled u s = true) :
    ∃ w, enabled w s = true ∧ coreMove s = .next (fireUnit w { s with choice := s.choice + 1 }) := by
  rcases coreMove_cases s with ⟨hnone, -⟩ | hmove
  · simp [hnone u] at hu
  · exact hmove

/-- Settles O28: `enabled` is R78's condition, and `coreMove` draws from the units that meet it. -/
theorem coreMoveIsOneEnabledFiring : Obligations.CoreMoveIsOneEnabledFiring := by
  intro s
  refine ⟨fun u => ⟨enabled_iff_fireable, exec_firingOf_of_fireable⟩, coreMove_of_none, fun ⟨u, hu⟩ => ?_⟩
  obtain ⟨w, hw, hmove⟩ := coreMove_of_enabled hu
  exact ⟨w, _, hw, hmove, rfl, by simp, by simp⟩

/-! ### BUSY -/

/-- The input channels of the nine units are the nine channels of R79. -/
theorem busy_of_inLength_pos (h : 0 < inLength u s.ch) : busy s = true := by
  cases u <;> rw [inLength, List.length_pos_iff] at h <;> simp [busy, h]

theorem busy_eq_anyBusy (s : State) : busy s = Spec.anyBusy s.ch := by
  rw [Bool.eq_iff_iff]
  simp only [busy, Spec.anyBusy, Bool.not_eq_true', Bool.and_eq_false_iff, List.isEmpty_eq_false_iff, or_assoc,
    decide_eq_true_eq]

/-- Settles O41: an enabled firing has an element in its input channel, which BUSY sees. -/
theorem nothingEnabledWithoutBusy : Obligations.NothingEnabledWithoutBusy := by
  refine fun s => ⟨busy_eq_anyBusy s, fun hidle u => ?_⟩
  by_contra hu
  obtain ⟨-, hin, -⟩ := enabled_iff.1 (Bool.eq_true_of_not_eq_false hu)
  simp [busy_of_inLength_pos hin] at hidle

/-! ### The work left in the channels -/

theorem length_pushed_le {α : Type} (out : Option α) : (pushed out).length ≤ 1 := by
  simpa using add_length_pushed_le Nat.zero_lt_one out

/-- A firing takes an element and emits at most one, whose worth is one firing less. -/
theorem work_fireUnit_lt (hu : enabled u s = true) : work (fireUnit u s) < work s := by
  obtain ⟨-, hin, -⟩ := enabled_iff.1 hu
  cases u with
  | mix0 | de | mix1 =>
    obtain ⟨x, rest, hc⟩ := List.exists_cons_of_length_pos hin
    simp only [work, fireUnit, fireMix0, fireDe, fireMix1, hc, List.length_append, List.length_cons,
      List.length_nil]
    omega
  | fir0 | qd | fir1 | fir2 | rx | dd =>
    obtain ⟨x, rest, hc⟩ := List.exists_cons_of_length_pos hin
    simp only [work, fireUnit, fireFir0, fireQd, fireFir1, fireFir2, fireRx, fireDd, raiseFlags, hc,
      List.length_append, List.length_cons]
    grind [length_pushed_le]

theorem run_of_work_lt (n : Nat) : ∀ s : State, s.pending = [] → work s < n →
    Host.Core.run Sys2Proof.core n s = .fault Fault.noStep := by
  induction n with
  | zero => intro s _ hwork; omega
  | succ n ih =>
    intro s hpending hwork
    have hstep : Sys2Proof.core.step s = coreMove s := by simp [Sys2Proof.core, step, hpending]
    simp only [Host.Core.run, hstep]
    rcases coreMove_cases s with ⟨-, hmove⟩ | ⟨u, hu, hmove⟩ <;> rw [hmove]
    have hless : work (fireUnit u { s with choice := s.choice + 1 }) < work s :=
      work_fireUnit_lt (s := { s with choice := s.choice + 1 }) hu
    exact ih _ (by simpa using hpending) (by omega)

/-- Settles O39, by induction on the number of steps: each of the core's own moves uses up work. -/
theorem unscheduledCoreComesToRest : Obligations.UnscheduledCoreComesToRest :=
  fun s hpending => run_of_work_lt _ s hpending (Nat.lt_succ_self _)

end Sys2Proof.Proofs
end

section
/-! Encodings (30_encoding.md R100 to R106): which codes are refused, what the decoder reads from a code of each
KIND, and that it and the encoder undo each other. -/

namespace Sys2Proof.Proofs

open Sys2Proof Sys2Proof.Machine

variable {sel : BitVec 12} {v : Word} {i : Instr}

/-! ### The fields of a code -/

theorem kindField_toNat (c : Half) : (kindField c).toNat = c.toNat / 2 ^ 12 := by
  rw [kindField, BitVec.extractLsb'_toNat, Nat.shiftRight_eq_div_pow]
  omega

theorem selField_toNat (c : Half) : (selField c).toNat = c.toNat % 2 ^ 12 := by
  rw [selField, BitVec.extractLsb'_toNat, Nat.shiftRight_zero]

theorem extract_middle {m n p : Nat} (k : BitVec m) (r : BitVec p) (b : BitVec n) :
    BitVec.extractLsb' n p (k ++ r ++ b) = r := by
  ext j hj
  simp [BitVec.getLsbD_append, hj]

theorem busCode_eq_append (k : BitVec 4) (r : BitVec 10) (b : BitVec 2) : busCode k r b = k ++ (r ++ b) := by
  rw [← kindField_append_selField (busCode k r b), kindField_busCode, selField_busCode]

theorem busCode_of_regField {r : BitVec 10} (k : BitVec 4) (h : (regField sel).toNat = r.toNat) :
    busCode k r (subField sel) = k ++ sel := by
  rw [busCode_eq_append, ← BitVec.eq_of_toNat_eq h, regField_append_subField]

theorem append_ofNat_of_toNat (k : BitVec 4) {n : Nat} (h : sel.toNat = n) : k ++ BitVec.ofNat 12 n = k ++ sel := by
  rw [← h, BitVec.ofNat_toNat, BitVec.setWidth_eq]

/-! ### Reserved codes -/

theorem decodeBeat_error_iff : (∃ why, decodeBeat sel v = .error why) ↔ 4 ≤ sel.toNat := by
  unfold decodeBeat
  split
  case h_5 => grind
  all_goals simp [*]

theorem decodeFire_error_iff : (∃ why, decodeFire sel = .error why) ↔ 9 ≤ sel.toNat := by
  unfold decodeFire
  split
  case h_10 => grind
  all_goals simp [*]

theorem decode_error_iff (t : Txn) :
    (∃ why, decode t = .error why) ↔
      4 ≤ (kindField t.code).toNat ∨ ((kindField t.code).toNat = 2 ∧ 4 ≤ (selField t.code).toNat) ∨
        ((kindField t.code).toNat = 3 ∧ 9 ≤ (selField t.code).toNat) := by
  unfold decode
  split
  case h_1 hk => simp [hk]
  case h_2 hk => simp [hk]
  case h_3 hk => simp [hk, decodeBeat_error_iff]
  case h_4 hk => simp [hk, decodeFire_error_iff]
  case h_5 => grind

theorem step_of_decode_error {s : State} {t : Txn} {rest : List Event} {why : ReservedCode}
    (hpending : s.pending = .txn t :: rest) (hdecode : decode t = .error why) :
    step s = .refused (.reservedCode why) := by
  rw [step, hpending]
  simp only [hdecode]

/-- Settles O30: the three spaces of R105 are where the decoder answers an error, which a step passes on. -/
theorem reservedCodesAreRefused : Obligations.ReservedCodesAreRefused := by
  intro t
  have hiff := decode_error_iff t
  rw [kindField_toNat, selField_toNat] at hiff
  refine ⟨hiff.symm, fun hreserved s rest hpending => ?_⟩
  obtain ⟨why, hwhy⟩ := hiff.2 hreserved
  exact ⟨why, step_of_decode_error hpending hwhy⟩

/-! ### The register an address selects -/

theorem isMapped_iff : isMapped sel = true ↔ (regField sel).toNat ∈ mappedRegs.map BitVec.toNat := by
  rw [List.mem_map_of_injective fun _ _ => BitVec.eq_of_toNat_eq]
  exact List.contains_iff_mem

theorem mappedRegs_toNat : mappedRegs.map BitVec.toNat =
    [0x00, 0x01, 0x02, 0x03, 0x04, 0x05, 0x06, 0x07, 0x08, 0x09, 0x0A, 0x0B, 0x10, 0x11, 0x12, 0x14, 0x15, 0x16,
      0x17, 0x18, 0x19, 0x1A, 0x1C, 0x1D, 0x1E, 0x1F, 0x20, 0x21, 0x22, 0x23, 0x24, 0x40, 0x41] := rfl

/-- An address no register has does not select the register with number `k`. -/
theorem regField_ne_of_unmapped (h : isMapped sel = false) {k : Nat} (hk : k ∈ mappedRegs.map BitVec.toNat) :
    (regField sel).toNat ≠ k := fun hsel =>
  absurd (isMapped_iff.2 (hsel ▸ hk)) (by simp [h])

theorem decodeRead_unmapped (h : isMapped sel = false) : decodeRead sel = .rdUnmapped sel := by
  unfold decodeRead
  split
  case h_34 => rfl
  all_goals exact absurd ‹(regField sel).toNat = _› (regField_ne_of_unmapped h (by decide))

theorem decodeWrite_unmapped (h : isMapped sel = false) : decodeWrite sel v = .wrUnmapped sel v := by
  unfold decodeWrite
  split
  case h_34 => rfl
  all_goals exact absurd ‹(regField sel).toNat = _› (regField_ne_of_unmapped h (by decide))

/-! ### Decode of encode -/

theorem decode_read (sel : BitVec 12) (p : Word) : decode ⟨0#4 ++ sel, p⟩ = .ok (decodeRead sel) := by
  simp [decode]

theorem decode_write (sel : BitVec 12) (p : Word) : decode ⟨1#4 ++ sel, p⟩ = .ok (decodeWrite sel p) := by
  simp [decode]

theorem decode_busCode_read (r : BitVec 10) (b : BitVec 2) (p : Word) :
    decode ⟨busCode 0#4 r b, p⟩ = .ok (decodeRead (r ++ b)) := by
  rw [busCode_eq_append, decode_read]

theorem decode_busCode_write (r : BitVec 10) (b : BitVec 2) (p : Word) :
    decode ⟨busCode 1#4 r b, p⟩ = .ok (decodeWrite (r ++ b) p) := by
  rw [busCode_eq_append, decode_write]

theorem decode_beat (sel : BitVec 12) (p : Word) : decode ⟨2#4 ++ sel, p⟩ = decodeBeat sel p := by
  simp [decode]

/-- R106: I and Q come back from the element they are put in. -/
theorem decode_encode_pushIq (a b : Byte) : decode (encode (.pushIq a b)) = .ok (.pushIq a b) := by
  have hq : (0#16 ++ b ++ a : Word).extractLsb' 8 8 = b := extract_middle 0#16 b a
  have hi : (0#16 ++ b ++ a : Word).extractLsb' 0 8 = a := extract_low (0#16 ++ b) a
  rw [encode, show (0x2000#16 : Half) = 2#4 ++ 0#12 from rfl, decode_beat, decodeBeat, hq, hi]
  rfl

/-- Settles O31, by cases on the operation: a register access gives back the register number and `addr[1:0]` it was made
from, an unmapped access misses every register by its well-formedness. -/
theorem decodeOfEncodeIsTheOperation : Obligations.DecodeOfEncodeIsTheOperation := by
  intro i hwf
  cases i with
  | rdUnmapped addr =>
    have haddr : isMapped addr = false := by simpa [wellFormed] using hwf
    rw [encode, decode_read, decodeRead_unmapped haddr]
  | wrUnmapped addr v =>
    have haddr : isMapped addr = false := by simpa [wellFormed] using hwf
    rw [encode, decode_write, decodeWrite_unmapped haddr]
  | pushIq a b => exact decode_encode_pushIq a b
  | popAud | popBit => rfl
  | pushAud v => exact decode_beat 2#12 v
  | fireMix0 | fireFir0 | fireQd | fireFir1 | fireDe | fireMix1 | fireFir2 | fireRx | fireDd => rfl
  | rdId b | rdCtrl b | rdStatus b | rdIrqEn b | rdInCount b | rdAudCount b | rdSymCount b | rdBitCount b
  | rdRxFreq b | rdRxPhase b | rdRxOmega b | rdRxMu b | rdCsInc b | rdCsDecim b | rdCsNtaps b | rdFmdGain b
  | rdFmdDecim b | rdFmdNtaps b | rdFmdAlpha b | rdTmInc b | rdTmDecim b | rdTmNtaps b | rdRxOmegaMid b
  | rdRxOmegaRel b | rdRxGainMu b | rdRxGainOmega b | rdRxAlpha b | rdRxBeta b | rdRxFmin b | rdRxFmax b
  | rdDdSkip b | rdTapAddr b | rdTapData b =>
    rw [encode, decode_busCode_read, decodeRead, regField_append, subField_append]
    rfl
  | wrId b v | wrCtrl b v | wrStatus b v | wrIrqEn b v | wrInCount b v | wrAudCount b v | wrSymCount b v
  | wrBitCount b v | wrRxFreq b v | wrRxPhase b v | wrRxOmega b v | wrRxMu b v | wrCsInc b v
  | wrCsDecim b v | wrCsNtaps b v | wrFmdGain b v | wrFmdDecim b v | wrFmdNtaps b v | wrFmdAlpha b v
  | wrTmInc b v | wrTmDecim b v | wrTmNtaps b v | wrRxOmegaMid b v | wrRxOmegaRel b v | wrRxGainMu b v
  | wrRxGainOmega b v | wrRxAlpha b v | wrRxBeta b v | wrRxFmin b v | wrRxFmax b v | wrDdSkip b v
  | wrTapAddr b v | wrTapData b v =>
    rw [encode, decode_busCode_write, decodeWrite, regField_append, subField_append]
    rfl

/-! ### What the decoder reads -/

/-- `i` is the operation of KIND `k` and SEL `sel`. -/
def Spells (k : BitVec 4) (sel : BitVec 12) (i : Instr) : Prop :=
  wellFormed i = true ∧ (encode i).code = k ++ sel

theorem decodeRead_spells (sel : BitVec 12) : Spells 0#4 sel (decodeRead sel) := by
  cases hmapped : isMapped sel with
  | false =>
    rw [decodeRead_unmapped hmapped]
    exact ⟨by simp [wellFormed, hmapped], rfl⟩
  | true =>
    rw [isMapped_iff] at hmapped
    unfold decodeRead
    split
    case h_34 =>
      simp only [mappedRegs_toNat, List.mem_cons, List.not_mem_nil, or_false] at hmapped
      grind
    all_goals exact ⟨rfl, busCode_of_regField _ ‹_›⟩

theorem decodeWrite_spells (sel : BitVec 12) (v : Word) : Spells 1#4 sel (decodeWrite sel v) := by
  cases hmapped : isMapped sel with
  | false =>
    rw [decodeWrite_unmapped hmapped]
    exact ⟨by simp [wellFormed, hmapped], rfl⟩
  | true =>
    rw [isMapped_iff] at hmapped
    unfold decodeWrite
    split
    case h_34 =>
      simp only [mappedRegs_toNat, List.mem_cons, List.not_mem_nil, or_false] at hmapped
      grind
    all_goals exact ⟨rfl, busCode_of_regField _ ‹_›⟩

theorem decodeBeat_spells (h : decodeBeat sel v = .ok i) : Spells 2#4 sel i := by
  unfold decodeBeat at h
  split at h <;> cases h
  all_goals exact ⟨rfl, (append_ofNat_of_toNat 2#4 ‹sel.toNat = _› :)⟩

theorem decodeFire_spells (h : decodeFire sel = .ok i) : Spells 3#4 sel i := by
  unfold decodeFire at h
  split at h <;> cases h
  all_goals exact ⟨rfl, (append_ofNat_of_toNat 3#4 ‹sel.toNat = _› :)⟩

theorem decode_spells {t : Txn} (h : decode t = .ok i) : Spells (kindField t.code) (selField t.code) i := by
  unfold decode at h
  split at h
  case h_1 hk =>
    rw [BitVec.eq_of_toNat_eq (y := 0#4) hk]
    cases h
    exact decodeRead_spells _
  case h_2 hk =>
    rw [BitVec.eq_of_toNat_eq (y := 1#4) hk]
    cases h
    exact decodeWrite_spells _ _
  case h_3 hk =>
    rw [BitVec.eq_of_toNat_eq (y := 2#4) hk]
    exact decodeBeat_spells h
  case h_4 hk =>
    rw [BitVec.eq_of_toNat_eq (y := 3#4) hk]
    exact decodeFire_spells h
  case h_5 => cases h

/-- Settles O32: the code is its KIND and its SEL, which the operation spells. -/
theorem decodedOperationsAreWellFormedAndKeepTheCode : Obligations.DecodedOperationsAreWellFormedAndKeepTheCode := by
  intro t i h
  obtain ⟨hwf, hcode⟩ := decode_spells h
  exact ⟨hwf, hcode.trans (kindField_append_selField t.code)⟩

/-- Settles O33: each word is the encoding of its operation. -/
theorem sampleWordsDecodeRight : Obligations.SampleWordsDecodeRight :=
  ⟨decodeOfEncodeIsTheOperation (.rdStatus 0#2) rfl, decodeOfEncodeIsTheOperation (.rdCsDecim 2#2) rfl,
    decodeOfEncodeIsTheOperation (.wrCtrl 0#2 1#32) rfl,
    decodeOfEncodeIsTheOperation (.wrTapData 0#2 0x3F800000#32) rfl,
    decodeOfEncodeIsTheOperation (.rdUnmapped 0xFFC#12) rfl, decodeOfEncodeIsTheOperation (.pushIq 255#8 128#8) rfl,
    decodeOfEncodeIsTheOperation .fireRx rfl⟩

end Sys2Proof.Proofs
end

section
/-! The words of the host interface (30_encoding.md R101, R106): a concatenation of fields as a number, and what the
decoder reads from a bus code written as one. -/

namespace Sys2Proof.Proofs

open Sys2Proof Sys2Proof.Machine

variable {a : Nat} {r : BitVec 10} {b : BitVec 2} {p : Word} {i : Instr}

/-! ### Concatenations as numbers -/

theorem toNat_append_eq {m n : Nat} (x : BitVec m) (y : BitVec n) :
    (x ++ y).toNat = x.toNat * 2 ^ n + y.toNat := by
  rw [BitVec.toNat_append, ← Nat.shiftLeft_add_eq_or_of_lt y.isLt, Nat.shiftLeft_eq]

theorem eq_ofNat_of_toNat {w n : Nat} {x : BitVec w} (h : x.toNat = n) : x = BitVec.ofNat w n :=
  (BitVec.toNat_eq_nat.1 h).2

@[simp] theorem flagBit_toNat (f : Bool) : (flagBit f).toNat = Spec.bitOf f := by cases f <;> rfl

theorem irq_eq_irqLevel (s : State) : irq s = Spec.irqLevel s := by
  rw [Bool.eq_iff_iff]
  simp [irq, Spec.irqLevel, or_assoc]

theorem statusWord_toNat (s : State) : (statusWord s).toNat = Spec.statusNumber s := by
  simp only [statusWord, Spec.statusNumber, toNat_append_eq, flagBit_toNat, irq_eq_irqLevel, busy_eq_anyBusy]
  cases s.mode <;> simp only [modeBits, BitVec.toNat_ofNat] <;> ring

/-- The STATUS word is the sum of its fields at their weights (R38). -/
theorem statusWord_eq (s : State) : statusWord s = BitVec.ofNat 32 (Spec.statusNumber s) :=
  eq_ofNat_of_toNat (statusWord_toNat s)

/-- The TAP_ADDR word is BANK above the 16 bits of INDEX (R61). -/
theorem tapAddrWord_eq (s : State) :
    tapAddrWord s = BitVec.ofNat 32 (s.tapBank.toNat * 2 ^ 16 + s.tapIndex.toNat) :=
  eq_ofNat_of_toNat (by rw [tapAddrWord, toNat_append_eq, toNat_append_eq]; simp)

/-- The IQ_IN element is Q above the 8 bits of I (R106). -/
theorem iqElement_eq (i q : Byte) : iqElement i q = BitVec.ofNat 16 (q.toNat * 2 ^ 8 + i.toNat) :=
  eq_ofNat_of_toNat (toNat_append_eq q i)

theorem iqPayload_eq (i q : Byte) : (0#16 ++ q ++ i : Word) = BitVec.ofNat 32 (q.toNat * 2 ^ 8 + i.toNat) :=
  eq_ofNat_of_toNat (by rw [toNat_append_eq, toNat_append_eq]; simp)

/-- INDEX wraps at 2^16 (R62). -/
theorem tapIndex_succ (j : Half) : j + 1#16 = BitVec.ofNat 16 ((j.toNat + 1) % 2 ^ 16) :=
  BitVec.eq_of_toNat_eq (by simp)

/-! ### Bus codes -/

/-- A register's byte address is four times its number (R101). -/
theorem busTc_eq_busCode (k : BitVec 4) (r : BitVec 10) (b : BitVec 2) :
    Spec.busTc k.toNat (4 * r.toNat) b = busCode k r b := by
  refine (eq_ofNat_of_toNat ?_).symm
  simp only [busCode, toNat_append_eq]
  ring

/-- A read code names the operation it encodes, whatever the payload (R104). -/
theorem decode_busTc_read (henc : encode i = ⟨busCode 0#4 r b, p⟩) (hwf : wellFormed i = true) (ha : a = 4 * r.toNat)
    (q : Word) : decode ⟨Spec.busTc 0 a b, q⟩ = .ok i := by
  have hcode : Spec.busTc 0 a b = busCode 0#4 r b := ha ▸ busTc_eq_busCode 0#4 r b
  have hdec := decodeOfEncodeIsTheOperation i hwf
  rw [henc, decode_busCode_read] at hdec
  rw [hcode, decode_busCode_read, hdec]

/-- A write code with its write data names the operation they encode. -/
theorem decode_busTc_write (henc : encode i = ⟨busCode 1#4 r b, p⟩) (hwf : wellFormed i = true) (ha : a = 4 * r.toNat) :
    decode ⟨Spec.busTc 1 a b, p⟩ = .ok i := by
  have hcode : Spec.busTc 1 a b = busCode 1#4 r b := ha ▸ busTc_eq_busCode 1#4 r b
  rw [hcode, ← henc]
  exact decodeOfEncodeIsTheOperation i hwf

end Sys2Proof.Proofs
end

section
/-! The bus reads (40_host_interface.md R140, R149, R152). -/

namespace Sys2Proof.Proofs

open Sys2Proof Sys2Proof.Machine

variable {a : Nat} {r : BitVec 10} {p : Word} {i : BitVec 2 → Instr}

/-- A read that is `readReg v` of the state returns `v`. -/
theorem readReturns_of_readReg {v : State → Word} (hexec : ∀ b s, exec (i b) s = readReg (v s) s)
    (henc : ∀ b, encode (i b) = ⟨busCode 0#4 r b, p⟩) (hwf : ∀ b, wellFormed (i b) = true) (ha : a = 4 * r.toNat) :
    Spec.ReadReturns a i v :=
  fun b s => ⟨decode_busTc_read (henc b) (hwf b) ha, hexec b s⟩

/-- A read of a CFG16 register returns it zero-extended (R35). -/
theorem readReturns_of_readHalf {v : State → Half} (hexec : ∀ b s, exec (i b) s = readHalf (v s) s)
    (henc : ∀ b, encode (i b) = ⟨busCode 0#4 r b, p⟩) (hwf : ∀ b, wellFormed (i b) = true) (ha : a = 4 * r.toNat) :
    Spec.ReadReturns a i (fun s => BitVec.ofNat 32 (v s).toNat) :=
  readReturns_of_readReg (fun b s => by rw [hexec, readHalf, readReg, BitVec.ofNat_toNat]) henc hwf ha

theorem rdStatus_returns :
    Spec.ReadReturns 0x008 .rdStatus (fun s => BitVec.ofNat 32 (Spec.statusNumber s)) :=
  readReturns_of_readReg (fun _ s => congrArg (readReg · s) (statusWord_eq s)) (fun _ => rfl) (fun _ => rfl) rfl

theorem rdIrqEn_returns : Spec.ReadReturns 0x00C .rdIrqEn (fun s => BitVec.ofNat 32 s.irqEn.toNat) :=
  readReturns_of_readReg (fun _ s => congrArg (readReg · s) (BitVec.ofNat_toNat 32 s.irqEn).symm) (fun _ => rfl)
    (fun _ => rfl) rfl

theorem rdTapAddr_returns :
    Spec.ReadReturns 0x100 .rdTapAddr
      (fun s => BitVec.ofNat 32 (s.tapBank.toNat * 2 ^ 16 + s.tapIndex.toNat)) :=
  readReturns_of_readReg (fun _ s => congrArg (readReg · s) (tapAddrWord_eq s)) (fun _ => rfl) (fun _ => rfl) rfl

/-- Settles O1: STATUS, IRQ_EN and TAP_ADDR are put together from fields, every other register is one field or a
constant. -/
theorem registerReadsReturnTheRegister : Obligations.RegisterReadsReturnTheRegister := by
  refine ⟨?id, ?ctrl, rdStatus_returns, rdIrqEn_returns, ?inCount, ?audCount, ?symCount, ?bitCount, ?rxFreq, ?rxPhase,
    ?rxOmega, ?rxMu, ?csInc, ?csDecim, ?csNtaps, ?fmdGain, ?fmdDecim, ?fmdNtaps, ?fmdAlpha, ?tmInc, ?tmDecim, ?tmNtaps,
    ?rxOmegaMid, ?rxOmegaRel, ?rxGainMu, ?rxGainOmega, ?rxAlpha, ?rxBeta, ?rxFmin, ?rxFmax, ?ddSkip, rdTapAddr_returns⟩
  case csDecim | csNtaps | fmdDecim | fmdNtaps | tmDecim | tmNtaps | ddSkip =>
    exact readReturns_of_readHalf (fun _ _ => rfl) (fun _ => rfl) (fun _ => rfl) rfl
  all_goals exact readReturns_of_readReg (fun _ _ => rfl) (fun _ => rfl) (fun _ => rfl) rfl

theorem tapRead_eq (m : Memory) (b : BitVec 2) (j : Half) :
    tapRead m b j =
      if b.toNat ≤ 2 ∧ j.toNat < Config.ntapsMax then memRead m (b.toNat * 2 ^ 16 + j.toNat) else 0#32 := by
  simp [tapRead, tapSelected, tapAddress]

/-- Settles O2: the read answers `tapRead` and advances INDEX. -/
theorem tapDataReadReturnsTapAndAdvances : Obligations.TapDataReadReturnsTapAndAdvances := fun b s =>
  ⟨decode_busTc_read (r := 0x041#10) rfl rfl rfl, by rw [← tapRead_eq, ← tapIndex_succ]; rfl⟩

/-- Settles O3: the address misses every register of the decoder. -/
theorem unmappedReadsReturnZero : Obligations.UnmappedReadsReturnZero := fun addr _ =>
  ⟨fun haddr p => by rw [decode_read, decodeRead_unmapped haddr], rfl⟩

end Sys2Proof.Proofs
end

section
/-! The bus writes (40_host_interface.md R141 to R151). -/

namespace Sys2Proof.Proofs

open Sys2Proof Sys2Proof.Machine

variable {a : Nat} {r : BitVec 10} {i : BitVec 2 → Word → Instr} {s : State}

/-! ### Registers that store nothing, and the configuration -/

theorem writeIgnored_of (hexec : ∀ b v s, exec (i b v) s = writeIgnored s)
    (henc : ∀ b v, encode (i b v) = ⟨busCode 1#4 r b, v⟩) (hwf : ∀ b v, wellFormed (i b v) = true)
    (ha : a = 4 * r.toNat) : Spec.WriteIgnored a i :=
  fun b v s => ⟨decode_busTc_write (henc b v) (hwf b v) ha, hexec b v s⟩

/-- Settles O4: each of these writes is `writeIgnored`. -/
theorem readOnlyAndUnmappedWritesDoNothing : Obligations.ReadOnlyAndUnmappedWritesDoNothing := by
  refine ⟨?_, ?_, ?_, ?_, ?_, ?_, ?_, ?_, ?_, fun addr v s => ⟨fun haddr => ?unmapped, rfl⟩⟩
  case unmapped => rw [decode_write, decodeWrite_unmapped haddr]
  all_goals exact writeIgnored_of (fun _ _ _ => rfl) (fun _ _ => rfl) (fun _ _ => rfl) rfl

/-- A configuration write stores by `f` outside RUN only (R67). -/
theorem writeStores_of {f : CfgRegs → Word → CfgRegs} (hexec : ∀ b v s, exec (i b v) s = writeCfg (f s.cfg v) s)
    (henc : ∀ b v, encode (i b v) = ⟨busCode 1#4 r b, v⟩) (hwf : ∀ b v, wellFormed (i b v) = true)
    (ha : a = 4 * r.toNat) : Spec.WriteStores a i f := by
  refine fun b v s => ⟨decode_busTc_write (henc b v) (hwf b v) ha, fun hrun => ?_, fun hopen => ?_⟩
  · rw [hexec, writeCfg_run hrun]
    rfl
  · rw [hexec, writeCfg_open hopen]
    rfl

/-- Settles O5: each of the nineteen writes is `writeCfg` with its own field replaced, by all of the value or by its
low half. -/
theorem configurationWritesStoreUnlessRunning : Obligations.ConfigurationWritesStoreUnlessRunning := by
  refine ⟨?_, ?_, ?_, ?_, ?_, ?_, ?_, ?_, ?_, ?_, ?_, ?_, ?_, ?_, ?_, ?_, ?_, ?_, ?_⟩ <;>
    exact writeStores_of (fun _ _ _ => rfl) (fun _ _ => rfl) (fun _ _ => rfl) rfl

/-! ### CTRL -/

theorem decode_wrCtrl (b : BitVec 2) (v : Word) : decode ⟨Spec.busTc 1 0x004 b, v⟩ = .ok (.wrCtrl b v) :=
  decode_busTc_write (r := 0x001#10) rfl rfl rfl

theorem exec_wrCtrl (b : BitVec 2) (v : Word) (s : State) : exec (.wrCtrl b v) s = .next (retire (command v s)) := rfl

theorem command_of_no_command {v : Word} (h1 : v.getLsbD 1 = false) (h0 : v.getLsbD 0 = true → s.mode = .run) :
    command v s = s := by
  rcases command_cases v s with ⟨hreset, -⟩ | ⟨-, hstart, hopen, -⟩ | ⟨-, -, hc⟩
  · cases h1.symm.trans hreset
  · exact absurd (h0 hstart) hopen
  · exact hc

theorem command_of_start {v : Word} (h1 : v.getLsbD 1 = false) (h0 : v.getLsbD 0 = true) (hopen : s.mode ≠ .run) :
    command v s = start s := by
  rw [command, h1, h0]
  exact if_neg hopen

/-- Settles O7: neither SOFT_RESET nor a START outside RUN is asked for. -/
theorem ctrlWriteWithoutCommandDoesNothing : Obligations.CtrlWriteWithoutCommandDoesNothing := by
  refine fun b v s h1 h0 => ⟨decode_wrCtrl b v, ?_⟩
  rw [exec_wrCtrl, command_of_no_command h1 h0]
  rfl

theorem start_of_fail (h : checkConfig Config.ntapsMax s.cfg ≠ 0#4) :
    start s = raiseConfigError (checkConfig Config.ntapsMax s.cfg) s := if_pos h

theorem start_of_pass (h : checkConfig Config.ntapsMax s.cfg = 0#4) : start s = startRun s :=
  if_neg (not_not.2 h)

/-- ERROR raises `irq` where ERR_EN is set (R68). -/
theorem irq_of_error (hen : s.irqEn.getLsbD 3 = true) (hmode : s.mode = .error) : irq s = true := by
  simp [irq, hen, hmode]

/-- Settles O8: outside RUN the command is START, whose two outcomes are the two of the check. -/
theorem startChecksThenRunsOrFails : Obligations.StartChecksThenRunsOrFails := by
  intro b v s h1 h0 hopen
  have hexec : exec (.wrCtrl b v) s = .next (retire (start s)) := by
    rw [exec_wrCtrl, command_of_start h1 h0 hopen]
  refine ⟨decode_wrCtrl b v, fun hfail => ?_, fun hpass => ?_⟩
  · rw [hexec, start_of_fail hfail]
    refine ⟨rfl, fun t ht hen => ?_⟩
    cases ht
    exact irq_of_error hen rfl
  · rw [hexec, start_of_pass hpass]
    rfl

/-! ### STATUS, IRQ_EN and TAP_ADDR -/

/-- Settles O10: masking a flag with the negated bit is the choice between 0 and the flag. -/
theorem statusWriteClearsNamedFlags : Obligations.StatusWriteClearsNamedFlags := by
  refine fun b v s => ⟨decode_busTc_write (r := 0x002#10) rfl rfl rfl, ?_⟩
  have hclear (f c : Bool) : (f && !c) = if c then false else f := by cases c <;> simp
  show Host.Outcome.next (retire (clearFlags s v)) = _
  simp only [clearFlags, hclear]
  rfl

/-- Settles O11: both sides cut the same four bits. -/
theorem irqEnableWriteStoresLowFourBits : Obligations.IrqEnableWriteStoresLowFourBits := fun _ _ _ =>
  ⟨decode_busTc_write (r := 0x003#10) rfl rfl rfl, rfl⟩

/-- Settles O12: BANK and INDEX are cut out of the value at bits 16 and 0. -/
theorem tapAddressWriteStoresBankAndIndex : Obligations.TapAddressWriteStoresBankAndIndex := by
  refine fun b v s => ⟨decode_busTc_write (r := 0x040#10) rfl rfl rfl, ?_⟩
  rw [← Nat.shiftRight_eq_div_pow]
  rfl

/-! ### TAP_DATA -/

/-- What every address of the tap space reads after a tap write (R62). -/
theorem memRead_tapWrite {m : Memory} (h : m.wf) (b : BitVec 2) (j : Half) (v : F32) (k : Nat) :
    memRead (tapWrite m b j v) k =
      if k = b.toNat * 2 ^ 16 + j.toNat ∧ b.toNat ≤ 2 ∧ j.toNat < Config.ntapsMax then v else memRead m k := by
  by_cases hsel : b.toNat ≤ 2 ∧ j.toNat < Config.ntapsMax
  · have hwrite : tapWrite m b j v = memWrite m (b.toNat * 2 ^ 16 + j.toNat) v := by
      simp [tapWrite, tapSelected, tapAddress, hsel]
    rw [hwrite, memRead_memWrite h]
    simp only [hsel, and_true]
  · have hwrite : tapWrite m b j v = m := by
      rw [tapWrite, if_neg]
      simpa [tapSelected] using hsel
    rw [hwrite, if_neg fun hk => hsel hk.2]

/-- Settles O13: the new tap memory is `tapWrite`'s, which keeps the canonical form. -/
theorem tapDataWriteStoresOneTapAndAdvances : Obligations.TapDataWriteStoresOneTapAndAdvances := by
  refine fun b v s => ⟨decode_busTc_write (r := 0x041#10) rfl rfl rfl, fun hrun => if_pos hrun, fun hopen hwf => ?_⟩
  refine ⟨tapWrite s.taps s.tapBank s.tapIndex v, tapWrite_wf _ _ _ hwf, ?_, memRead_tapWrite hwf _ _ v⟩
  rw [← tapIndex_succ]
  exact if_neg hopen

end Sys2Proof.Proofs
end

section
/-! The stream ports (40_host_interface.md R153 to R157). -/

namespace Sys2Proof.Proofs

open Sys2Proof Sys2Proof.Machine

variable {s : State}

/-- The core's own move neither takes the scheduled beat nor returns anything. -/
theorem waits_of_coreMove {i : Instr} (h : exec i s = coreMove s) : Spec.Waits i s := by
  intro t ht
  obtain ⟨u, -, rfl⟩ := coreMove_next (h ▸ ht)
  simp

/-- Settles O16: the payload and the element are the same two bytes, Q above I. -/
theorem pushIqEnqueuesWhenReady : Obligations.PushIqEnqueuesWhenReady := by
  refine fun i q s => ⟨?_, fun hrun hroom => ?_, fun hbusy => waits_of_coreMove (execPushIq_waits hbusy i q)⟩
  · rw [← iqPayload_eq]
    exact decode_encode_pushIq i q
  · rw [← iqElement_eq]
    exact if_pos (portAccepts_iff.2 ⟨hrun, hroom⟩)

/-- Settles O17, by whether AUD_OUT holds a sample. -/
theorem popAudTakesTheOldestSample : Obligations.PopAudTakesTheOldestSample := by
  refine fun s => ⟨decode_beat 1#12, fun v rest hch => ?_, fun hempty => waits_of_coreMove (execPopAud_waits hempty)⟩
  show execPopAud s = _
  simp only [execPopAud, hch]
  rfl

/-- Settles O18, by whether the port is ready. -/
theorem pushAudEnqueuesWhenReady : Obligations.PushAudEnqueuesWhenReady := fun v _ =>
  ⟨decode_beat 2#12 v, fun hrun hroom => if_pos (portAccepts_iff.2 ⟨hrun, hroom⟩),
    fun hbusy => waits_of_coreMove (execPushAud_waits hbusy v)⟩

/-- Settles O19, by whether BIT_OUT holds a bit. -/
theorem popBitTakesTheOldestBit : Obligations.PopBitTakesTheOldestBit := by
  refine fun s => ⟨decode_beat 3#12, fun v rest hch => ?_, fun hempty => waits_of_coreMove (execPopBit_waits hempty)⟩
  show execPopBit s = _
  simp only [execPopBit, hch]
  rfl

end Sys2Proof.Proofs
end

section
/-! The two mixers (41_complex_mixer.md R182 to R186): their firings, the accumulator law, and the byte conversion. -/

namespace Sys2Proof.Proofs

open Sys2Proof Sys2Proof.Machine

variable {s : State} {u : UnitId}

/-! ### A unit's firing as a scheduled step -/

theorem decode_fire (sel : BitVec 12) (p : Word) : decode ⟨3#4 ++ sel, p⟩ = decodeFire sel := by
  simp [decode]

theorem waits_of_not_fireable (h : ¬ Spec.Fireable u s) : Spec.Waits (Spec.firingOf u) s :=
  waits_of_coreMove (exec_firingOf_waits h)

theorem inLength_fireUnit (u : UnitId) (s : State) : inLength u (fireUnit u s).ch = inLength u s.ch - 1 := by
  rw [inLength_eq, inLength_eq, (fireUnit_frame u s).held_in, List.length_tail]

/-! ### What a mixer's firing does -/

theorem fireMix0_of_cons {w : Half} {rest : List Half} (h : s.ch.iq = w :: rest) :
    fireMix0 s =
      { s with
        ch := { s.ch with iq := rest, mx0 := s.ch.mx0 ++ [cmul (iqSample w) (oscillator num s.dp.mix0Acc)] }
        dp := { s.dp with mix0Acc := s.dp.mix0Acc + s.cfg.csInc } } := by
  simp only [fireMix0, h]

theorem fireMix1_of_cons {a : F32} {rest : List F32} (h : s.ch.ain = a :: rest) :
    fireMix1 s =
      { s with
        ch := { s.ch with ain := rest, mx1 := s.ch.mx1 ++ [cmul (realSample a) (oscillator num s.dp.mix1Acc)] }
        dp := { s.dp with mix1Acc := s.dp.mix1Acc + s.cfg.tmInc } } := by
  simp only [fireMix1, h]

/-- I is the low byte of an IQ_IN element and Q the high one (R106). -/
theorem iqSample_eq (w : Half) :
    iqSample w = ⟨convByte (BitVec.ofNat 8 w.toNat), convByte (BitVec.ofNat 8 (w.toNat / 2 ^ 8))⟩ := by
  simp [iqSample, iByte, qByte, BitVec.extractLsb', Nat.shiftRight_eq_div_pow]

/-- Settles O20: the firing of MIX0, its input element taken apart into the two bytes. -/
theorem fireMix0ConvertsAndMixes : Obligations.FireMix0ConvertsAndMixes := by
  refine ⟨decode_fire 0#12, fun s => waits_of_not_fireable (u := .mix0), fun s w rest hch hfire => ?_⟩
  have hexec := exec_firingOf_of_fireable (u := .mix0) hfire
  rw [fireUnit, fireMix0_of_cons hch, iqSample_eq] at hexec
  exact hexec

/-- Settles O21: the firing of MIX1. -/
theorem fireMix1MixesRealSample : Obligations.FireMix1MixesRealSample := by
  refine ⟨decode_fire 5#12, fun s => waits_of_not_fireable (u := .mix1), fun s a rest hch hfire => ?_⟩
  have hexec := exec_firingOf_of_fireable (u := .mix1) hfire
  rw [fireUnit, fireMix1_of_cons hch] at hexec
  exact hexec

/-! ### The accumulator law -/

theorem fireMix0_mix0Acc (h : 0 < s.ch.iq.length) : (fireMix0 s).dp.mix0Acc = s.dp.mix0Acc + s.cfg.csInc := by
  obtain ⟨w, rest, hch⟩ := List.exists_cons_of_length_pos h
  rw [fireMix0_of_cons hch]

theorem fireMix1_mix1Acc (h : 0 < s.ch.ain.length) : (fireMix1 s).dp.mix1Acc = s.dp.mix1Acc + s.cfg.tmInc := by
  obtain ⟨a, rest, hch⟩ := List.exists_cons_of_length_pos h
  rw [fireMix1_of_cons hch]

/-- A word that each firing of `u` with an element waiting advances by an amount the firing leaves alone has advanced by
`n` times that amount after `n` firings, as long as elements are waiting. -/
theorem acc_iterate_fireUnit {acc inc : State → Word}
    (hacc : ∀ {s}, 0 < inLength u s.ch → acc (fireUnit u s) = acc s + inc s)
    (hinc : ∀ s, inc (fireUnit u s) = inc s) (n : Nat) :
    ∀ s : State, n ≤ inLength u s.ch → acc ((fireUnit u)^[n] s) = acc s + BitVec.ofNat 32 n * inc s := by
  induction n with
  | zero => simp
  | succ n ih =>
    intro s hlen
    have hrest : n ≤ inLength u (fireUnit u s).ch := by
      rw [inLength_fireUnit]
      omega
    calc acc ((fireUnit u)^[n + 1] s)
        = acc (fireUnit u s) + BitVec.ofNat 32 n * inc (fireUnit u s) := ih _ hrest
      _ = acc s + inc s + BitVec.ofNat 32 n * inc s := by rw [hacc (by omega), hinc]
      _ = acc s + BitVec.ofNat 32 (n + 1) * inc s := by
        rw [BitVec.ofNat_add, BitVec.add_mul, BitVec.one_mul, BitVec.add_assoc, BitVec.add_comm (inc s)]

/-- Settles O46, by induction on the number of firings: a firing leaves the increment alone. -/
theorem oscillatorAccumulatesExactly : Obligations.OscillatorAccumulatesExactly := fun n s =>
  ⟨acc_iterate_fireUnit (u := .mix0) (acc := (·.dp.mix0Acc)) (inc := (·.cfg.csInc)) fireMix0_mix0Acc (by simp) n s,
    acc_iterate_fireUnit (u := .mix1) (acc := (·.dp.mix1Acc)) (inc := (·.cfg.tmInc)) fireMix1_mix1Acc (by simp) n s⟩

/-! ### The byte conversion -/

/-- R183's fraction `(2·u - 255) / 255`, its sign and its magnitude. -/
theorem convByte_eq (u : Byte) :
    convByte u = fpack (decide (u.toNat < 128)) (roundMag ((2 * u.toNat - 255 : Int).natAbs * unitsPerOne) 255) := by
  rw [convByte]
  split
  · rw [fofFrac, decide_eq_false (by omega), show (2 * u.toNat - 255 : Int).natAbs = 2 * u.toNat - 255 by omega]
  · rw [fofFrac, decide_eq_true (by omega), show (2 * u.toNat - 255 : Int).natAbs = 255 - 2 * u.toNat by omega]

/-- A fraction of at least one unit is not rounded to 0. -/
theorem roundMag_pos {p q : Nat} (hq : 0 < q) (hle : q ≤ p) : 0 < roundMag p q := by
  have hne : roundDown p q ≠ 0 := by
    intro hzero
    obtain ⟨hshift, hquot⟩ : roundShift p q = 0 ∧ p / gap p q = 0 := by
      rw [roundDown, Nat.add_eq_zero_iff] at hzero
      omega
    rw [gap, hshift, pow_zero, Nat.mul_one] at hquot
    exact (Nat.div_pos hle hq).ne' hquot
  rcases roundMag_cases p q with ⟨-, hround⟩ | ⟨-, hround⟩ <;> omega

/-- The magnitude is an odd number of 255ths, at least 1 and at most 255 of them. -/
theorem fmag_convByte_bounds (u : Byte) : 0 < fmag (convByte u) ∧ fmag (convByte u) < 0x7F800000 := by
  have hpos : 1 ≤ (2 * u.toNat - 255 : Int).natAbs := by omega
  have hle : (2 * u.toNat - 255 : Int).natAbs ≤ 255 := by omega
  rw [convByte_eq, fmag_fpack_roundMag]
  generalize (2 * u.toNat - 255 : Int).natAbs = m at hpos hle ⊢
  have hlow : 255 ≤ m * 2 ^ 149 := by omega
  have hhigh : m * 2 ^ 149 < (2 ^ 25 - 1) * 2 ^ 252 * 255 := by omega
  refine ⟨roundMag_pos (by decide) hlow, lt_of_le_of_ne (Nat.min_le_right _ _) ?_⟩
  rw [Ne, roundMag_eq_infinity_iff (by decide)]
  exact hhigh.not_ge

/-- R183 is symmetric about 127.5. -/
theorem convByte_sub (u : Byte) : convByte (255#8 - u) = fneg (convByte u) := by
  have hsub : (255#8 - u).toNat = 255 - u.toNat := by bv_omega
  have hsign : decide (255 - u.toNat < 128) = !decide (u.toNat < 128) := by
    rw [← decide_not]
    exact decide_eq_decide.2 (by omega)
  have hmag : (2 * (255 - u.toNat : Nat) - 255 : Int).natAbs = (2 * u.toNat - 255 : Int).natAbs := by omega
  rw [convByte_eq, convByte_eq, hsub, hsign, hmag, fpack_not _ (roundMag_lt _ _)]

/-- Settles O47: the four values are computed; the rest holds by the bounds of the magnitude and by the symmetry. -/
theorem byteConversionIsCentred : Obligations.ByteConversionIsCentred := by
  refine ⟨by decide, by decide, by decide, by decide, fun u => ?_⟩
  obtain ⟨hpos, hlt⟩ := fmag_convByte_bounds u
  exact ⟨decide_eq_true hlt, decide_eq_false hpos.ne', convByte_sub u⟩

end Sys2Proof.Proofs
end

section
/-! The decimating FIR units (42_decimating_fir.md R201 to R207): their firings, what a filter holds after a stream, and
the windows of its outputs. -/

namespace Sys2Proof.Proofs

open Sys2Proof Sys2Proof.Machine

variable {α β : Type} {s : State}

/-! ### What a FIR's firing does -/

theorem firAccept_fst_eq_firNext (zero : α) (n d : Half) (u : Fir α) (x : α) :
    (firAccept zero n d u x).1 = Spec.firNext n d u x := firAccept_fst zero n d u x

/-- A sample gives an output where the window is full and the phase is 0 (R201). -/
theorem firAccept_snd (zero : α) (n d : Half) (u : Fir α) (x : α) :
    (firAccept zero n d u x).2 =
      if nextFill n u.fill = n ∧ u.ph = 0#16 then some (firWindow zero n.toNat (firShift n.toNat u.dl x)) else none := by
  rw [ite_and]
  show (if nextFill n u.fill = n then _ else _ : Fir α × Option (List α)).2 = _
  split <;> rfl

theorem firDue_iff (n : Half) (u : Fir α) : Spec.firDue n u = true ↔ nextFill n u.fill = n ∧ u.ph = 0#16 := by
  rw [Spec.firDue, Bool.and_eq_true, decide_eq_true_iff, decide_eq_true_iff, nextFill]

theorem pushed_firAccept (zero : α) (n d : Half) (u : Fir α) (x : α) (f : List α → β) :
    pushed ((firAccept zero n d u x).2.map f) =
      if Spec.firDue n u then [f (Spec.firView zero n u x)] else [] := by
  rw [firAccept_snd]
  simp only [firDue_iff]
  split <;> rfl

theorem fireFir0_of_cons {x : C32} {rest : List C32} (h : s.ch.mx0 = x :: rest) :
    fireFir0 s =
      { s with
        ch := { s.ch with
          mx0 := rest
          f0 := s.ch.f0 ++ (if Spec.firDue s.cfg.csNtaps s.dp.fir0 then
            [firDotC Config.firDot (Spec.tapsOf s 0#2 s.cfg.csNtaps)
              (Spec.firView C32.zero s.cfg.csNtaps s.dp.fir0 x)] else []) }
        dp := { s.dp with fir0 := Spec.firNext s.cfg.csNtaps s.cfg.csDecim s.dp.fir0 x } } := by
  simp only [fireFir0, h, pushed_firAccept, firAccept_fst_eq_firNext]
  rfl

theorem fireFir1_of_cons {x : F32} {rest : List F32} (h : s.ch.qd = x :: rest) :
    fireFir1 s =
      { s with
        ch := { s.ch with
          qd := rest
          f1 := s.ch.f1 ++ (if Spec.firDue s.cfg.fmdNtaps s.dp.fir1 then
            [Config.firDot (Spec.tapsOf s 1#2 s.cfg.fmdNtaps)
              (Spec.firView 0#32 s.cfg.fmdNtaps s.dp.fir1 x)] else []) }
        dp := { s.dp with fir1 := Spec.firNext s.cfg.fmdNtaps s.cfg.fmdDecim s.dp.fir1 x } } := by
  simp only [fireFir1, h, pushed_firAccept, firAccept_fst_eq_firNext]
  rfl

theorem fireFir2_of_cons {x : C32} {rest : List C32} (h : s.ch.mx1 = x :: rest) :
    fireFir2 s =
      { s with
        ch := { s.ch with
          mx1 := rest
          f2 := s.ch.f2 ++ (if Spec.firDue s.cfg.tmNtaps s.dp.fir2 then
            [firDotC Config.firDot (Spec.tapsOf s 2#2 s.cfg.tmNtaps)
              (Spec.firView C32.zero s.cfg.tmNtaps s.dp.fir2 x)] else []) }
        dp := { s.dp with fir2 := Spec.firNext s.cfg.tmNtaps s.cfg.tmDecim s.dp.fir2 x } } := by
  simp only [fireFir2, h, pushed_firAccept, firAccept_fst_eq_firNext]
  rfl

/-- Settles O22: for each of the three units its code, its waiting, and its firing on an input channel that holds a
sample. -/
theorem firFiringsShiftAndEmitWhenDue : Obligations.FirFiringsShiftAndEmitWhenDue := by
  refine ⟨fun p => ⟨decode_fire 1#12 p, decode_fire 3#12 p, decode_fire 6#12 p⟩,
    fun s => ⟨waits_of_not_fireable (u := .fir0), waits_of_not_fireable (u := .fir1), waits_of_not_fireable (u := .fir2)⟩,
    fun s x rest hch hfire => ?_, fun s x rest hch hfire => ?_, fun s x rest hch hfire => ?_⟩
  · have hexec := exec_firingOf_of_fireable (u := .fir0) hfire
    rw [fireUnit, fireFir0_of_cons hch] at hexec
    exact hexec
  · have hexec := exec_firingOf_of_fireable (u := .fir1) hfire
    rw [fireUnit, fireFir1_of_cons hch] at hexec
    exact hexec
  · have hexec := exec_firingOf_of_fireable (u := .fir2) hfire
    rw [fireUnit, fireFir2_of_cons hch] at hexec
    exact hexec

/-! ### What a FIR holds after a stream -/

/-- A FIR that has accepted the stream `xs` since START: it holds the last `n` samples, newest first, and its phase counts
the windows that were full so far modulo `d`. -/
structure FirHolds (n d : Half) (xs : List α) (u : Fir α) : Prop where
  dl_eq : u.dl = xs.reverse.take n.toNat
  fill_eq : u.fill.toNat = min xs.length n.toNat
  ph_eq : u.ph.toNat = (xs.length + 1 - n.toNat) % d.toNat

theorem firHolds_start {n : Half} (hn : 0 < n.toNat) (d : Half) : FirHolds (α := α) n d [] ⟨[], 0#16, 0#16⟩ where
  dl_eq := by simp
  fill_eq := by simp
  ph_eq := by simp [Nat.sub_eq_zero_of_le (show 1 ≤ n.toNat from hn)]

theorem firShift_take {n : Nat} (hn : 0 < n) (l : List α) (x : α) : firShift n (l.take n) x = (x :: l).take n := by
  obtain ⟨k, rfl⟩ := Nat.exists_eq_add_one.2 hn
  simp [firShift, List.take_take]

/-- A window of samples that are all held reads no entry beyond the delay line (R208). -/
theorem firWindow_take {n : Nat} {l : List α} (h : n ≤ l.length) (zero : α) : firWindow zero n (l.take n) = l.take n := by
  refine List.ext_getElem (by simp [firWindow, h]) fun i hi _ => ?_
  have hlt : i < n := by simpa [firWindow] using hi
  have hlen : i < (l.take n).length := by simp; omega
  simp only [firWindow, List.getElem_map, List.getElem_range, List.getD_eq_getElem _ _ hlen]

theorem nextPhase_toNat {d : Half} (hd : 0 < d.toNat) (ph : Half) :
    (nextPhase d ph).toNat = (ph.toNat + 1) % d.toNat := by
  have hne : d ≠ 0#16 := fun h0 => hd.ne' (congrArg BitVec.toNat h0)
  have hmod := Nat.mod_lt (ph.toNat + 1) hd
  have hlt := d.isLt
  rw [nextPhase, if_neg hne, BitVec.toNat_ofNat, Nat.mod_eq_of_lt (by omega)]

section
variable {n d : Half} {xs : List α} {u : Fir α}

theorem FirHolds.fill_next (h : FirHolds n d xs u) : (nextFill n u.fill).toNat = min (xs.length + 1) n.toNat := by
  have hfill := h.fill_eq
  rw [nextFill_toNat (by omega)]
  omega

theorem FirHolds.nextFill_eq_iff (h : FirHolds n d xs u) : nextFill n u.fill = n ↔ n.toNat ≤ xs.length + 1 := by
  rw [← BitVec.toNat_inj, h.fill_next, min_eq_right_iff]

theorem FirHolds.firShift_eq (h : FirHolds n d xs u) (hn : 0 < n.toNat) (x : α) :
    firShift n.toNat u.dl x = (xs ++ [x]).reverse.take n.toNat := by
  rw [h.dl_eq, firShift_take hn, List.reverse_concat]

/-- The phase advances with each full window, and only then (R201). -/
theorem FirHolds.ph_next (h : FirHolds n d xs u) (hd : 0 < d.toNat) :
    (if nextFill n u.fill = n then nextPhase d u.ph else u.ph).toNat = (xs.length + 1 + 1 - n.toNat) % d.toNat := by
  simp only [h.nextFill_eq_iff]
  split
  next hfull =>
    rw [nextPhase_toNat hd, h.ph_eq, Nat.mod_add_mod, Nat.sub_add_comm hfull]
  next hshort => rw [h.ph_eq, Nat.sub_eq_zero_of_le (by omega), Nat.sub_eq_zero_of_le (by omega)]

theorem FirHolds.concat (h : FirHolds n d xs u) (hc : FirConfigured n d) (zero x : α) :
    FirHolds n d (xs ++ [x]) (firAccept zero n d u x).1 := by
  rw [firAccept_fst]
  refine ⟨h.firShift_eq hc.taps_pos x, ?_, ?_⟩
  · rw [List.length_append]
    exact h.fill_next
  · rw [List.length_append]
    exact h.ph_next hc.decim_pos

/-- The next sample gives an output where it completes a window whose start is a multiple of `d`. -/
theorem FirHolds.due_iff (h : FirHolds n d xs u) :
    nextFill n u.fill = n ∧ u.ph = 0#16 ↔ n.toNat ≤ xs.length + 1 ∧ d.toNat ∣ xs.length + 1 - n.toNat := by
  rw [h.nextFill_eq_iff, ← BitVec.toNat_inj, h.ph_eq, BitVec.toNat_ofNat, Nat.zero_mod, Nat.dvd_iff_mod_eq_zero]

end

/-! ### The outputs of a stream -/

/-- How many windows of `n` samples start at a multiple of `d` and end within the first `m` samples (R207): none before
the first window is full, then the first and one for each `d` samples after it. -/
def windowCount (n d m : Nat) : Nat := (m + d - n) / d

/-- The windows themselves, the samples newest first (R203). -/
def decimatedWindows (n d : Nat) (xs : List α) : List (List α) :=
  (List.range (windowCount n d xs.length)).map fun k => ((xs.drop (k * d)).take n).reverse

section
variable {n d m : Nat}

theorem windowCount_eq_zero (hd : 0 < d) (h : m < n) : windowCount n d m = 0 :=
  Nat.div_eq_of_lt (by omega)

theorem windowCount_of_le (hd : 0 < d) (h : n ≤ m) : windowCount n d m = (m - n) / d + 1 := by
  rw [windowCount, Nat.sub_add_comm h, Nat.add_div_right _ hd]

/-- Every window counted is complete. -/
theorem window_fits (hd : 0 < d) {k : Nat} (hk : k < windowCount n d m) : k * d + n ≤ m := by
  have hle : (k + 1) * d ≤ m + d - n := (Nat.le_div_iff_mul_le hd).1 hk
  have hsucc : (k + 1) * d = k * d + d := Nat.succ_mul k d
  omega

theorem windowCount_mul (hd : 0 < d) (hfull : n ≤ m + 1) (hdvd : d ∣ m + 1 - n) : windowCount n d m * d = m + 1 - n := by
  obtain ⟨q, hq⟩ := hdvd
  rw [windowCount, show m + d - n = d * q + (d - 1) by omega, Nat.mul_add_div hd, Nat.div_eq_of_lt (by omega), hq]
  ring

theorem windowCount_succ (hd : 0 < d) :
    windowCount n d (m + 1) = windowCount n d m + if n ≤ m + 1 ∧ d ∣ m + 1 - n then 1 else 0 := by
  rcases Nat.lt_or_ge (m + 1) n with hshort | hfull
  · rw [windowCount_eq_zero hd hshort, windowCount_eq_zero hd (by omega), if_neg (by omega)]
  · have hdvd : d ∣ m + d - n + 1 ↔ d ∣ m + 1 - n := by
      rw [show m + d - n + 1 = m + 1 - n + d by omega, Nat.dvd_add_self_right]
    rw [windowCount, show m + 1 + d - n = m + d - n + 1 by omega, Nat.succ_div]
    simp only [hdvd, hfull, true_and, windowCount]

theorem decimatedWindows_nil (hn : 0 < n) (hd : 0 < d) : decimatedWindows n d ([] : List α) = [] := by
  rw [decimatedWindows, List.length_nil, windowCount_eq_zero hd hn]
  rfl

theorem length_decimatedWindows (xs : List α) : (decimatedWindows n d xs).length = windowCount n d xs.length := by
  rw [decimatedWindows, List.length_map, List.length_range]

/-- A further sample leaves the windows before it as they are, and adds its own where one is due. -/
theorem decimatedWindows_concat (hd : 0 < d) (xs : List α) (x : α) :
    decimatedWindows n d (xs ++ [x]) = decimatedWindows n d xs ++
      if n ≤ xs.length + 1 ∧ d ∣ xs.length + 1 - n then [(xs ++ [x]).reverse.take n] else [] := by
  have hold : (List.range (windowCount n d xs.length)).map (fun k => (((xs ++ [x]).drop (k * d)).take n).reverse) =
      decimatedWindows n d xs := by
    refine List.map_congr_left fun k hk => ?_
    have hfits := window_fits hd (List.mem_range.1 hk)
    rw [List.drop_append_of_le_length (by omega), List.take_append_of_le_length (by rw [List.length_drop]; omega)]
  rw [decimatedWindows, List.length_append, List.length_singleton, windowCount_succ hd]
  split
  next hdue =>
    obtain ⟨hfull, hdvd⟩ := hdue
    have hlen : (xs ++ [x]).length = xs.length + 1 := List.length_append
    rw [List.range_succ, List.map_append, hold, List.map_singleton, windowCount_mul hd hfull hdvd,
      List.take_of_length_le (by rw [List.length_drop]; omega), List.take_reverse, hlen]
  next => rw [Nat.add_zero, hold, List.append_nil]

end

section
variable {n d : Half}

theorem FirHolds.output {xs : List α} {u : Fir α} (h : FirHolds n d xs u) (hn : 0 < n.toNat) (zero x : α) :
    (firAccept zero n d u x).2.toList =
      if n.toNat ≤ xs.length + 1 ∧ d.toNat ∣ xs.length + 1 - n.toNat then [(xs ++ [x]).reverse.take n.toNat] else [] := by
  rw [firAccept_snd]
  simp only [h.due_iff]
  split
  next hdue =>
    have hlen : n.toNat ≤ (xs ++ [x]).reverse.length := by simpa using hdue.1
    rw [h.firShift_eq hn, firWindow_take hlen, Option.toList_some]
  next => rfl

theorem firRun_concat (zero : α) (n d : Half) (u : Fir α) (xs : List α) (x : α) :
    Spec.firRun zero n d u (xs ++ [x]) =
      ((firAccept zero n d (Spec.firRun zero n d u xs).1 x).1,
        (Spec.firRun zero n d u xs).2 ++ (firAccept zero n d (Spec.firRun zero n d u xs).1 x).2.toList) := by
  simp only [Spec.firRun, List.foldl_append, List.foldl_cons, List.foldl_nil]

/-- The output law (R203): from START a FIR holds its last samples and has given the windows that were due, by induction
on the stream from its end. -/
theorem firRun_start (hc : FirConfigured n d) (zero : α) (xs : List α) :
    FirHolds n d xs (Spec.firRun zero n d ⟨[], 0#16, 0#16⟩ xs).1 ∧
      (Spec.firRun zero n d ⟨[], 0#16, 0#16⟩ xs).2 = decimatedWindows n.toNat d.toNat xs := by
  induction xs using List.reverseRecOn with
  | nil => exact ⟨firHolds_start hc.taps_pos d, (decimatedWindows_nil hc.taps_pos hc.decim_pos).symm⟩
  | append_singleton xs x ih =>
    obtain ⟨hholds, houts⟩ := ih
    rw [firRun_concat, decimatedWindows_concat hc.decim_pos, houts, hholds.output hc.taps_pos]
    exact ⟨hholds.concat hc zero x, rfl⟩

theorem firConfigured_of_ne (hn : n ≠ 0#16) (hd : d ≠ 0#16) : FirConfigured n d where
  taps_pos := Nat.pos_of_ne_zero fun h0 => hn (BitVec.eq_of_toNat_eq h0)
  decim_pos := Nat.pos_of_ne_zero fun h0 => hd (BitVec.eq_of_toNat_eq h0)

end

/-- Settles O49: the outputs are the windows counted, and for a stream of at least one window the count is R207's. -/
theorem firOutputsAreTheDecimatedWindows : Obligations.FirOutputsAreTheDecimatedWindows := by
  intro α zero n d xs hn hd hlen
  have hc := firConfigured_of_ne hn hd
  rw [(firRun_start hc zero xs).2, decimatedWindows, windowCount_of_le hc.decim_pos hlen]

/-- Settles O48: there are as many outputs as windows counted. -/
theorem firOutputCountFollowsRateLaw : Obligations.FirOutputCountFollowsRateLaw := by
  intro α zero n d xs hn hd
  have hc := firConfigured_of_ne hn hd
  rw [(firRun_start hc zero xs).2, length_decimatedWindows]
  split
  next hshort => exact windowCount_eq_zero hc.decim_pos hshort
  next hfull => exact windowCount_of_le hc.decim_pos (Nat.le_of_not_lt hfull)

end Sys2Proof.Proofs
end

section
/-! The FM demodulator (43_fm_demodulator.md R232 to R236): the firings of QD and DE, the angle's range, and what the
discriminator gives over a stream. -/

namespace Sys2Proof.Proofs

open Sys2Proof Sys2Proof.Machine

variable {s : State}

/-! ### What the two firings do -/

theorem qdAccept_fst (n : Machine.Num) (gain : F32) (u : Qd) (x : C32) : (qdAccept n gain u x).1 = ⟨x, true⟩ := rfl

theorem pushed_qdAccept (n : Machine.Num) (gain : F32) (u : Qd) (x : C32) :
    pushed (qdAccept n gain u x).2 = if u.havePrev then [fmul gain (carg n (conjProduct x u.prev))] else [] := by
  rw [qdAccept]
  split <;> rfl

theorem fireQd_of_cons {x : C32} {rest : List C32} (h : s.ch.f0 = x :: rest) :
    fireQd s =
      { s with
        ch := { s.ch with
          f0 := rest
          qd := s.ch.qd ++ (if s.dp.qd.havePrev then
            [fmul s.cfg.fmdGain (carg num (conjProduct x s.dp.qd.prev))] else []) }
        dp := { s.dp with qd := ⟨x, true⟩ } } := by
  simp only [fireQd, h, pushed_qdAccept, qdAccept_fst]

theorem fireDe_of_cons {x : F32} {rest : List F32} (h : s.ch.f1 = x :: rest) :
    fireDe s =
      { s with
        ch := { s.ch with f1 := rest, aout := s.ch.aout ++ [deEmphasis s.cfg.fmdAlpha s.dp.deY x] }
        dp := { s.dp with deY := deEmphasis s.cfg.fmdAlpha s.dp.deY x }
        cnt := { s.cnt with audCount := s.cnt.audCount + 1#32 } } := by
  simp only [fireDe, h]

/-- Settles O23: the firing of QD; the angle of the statement is `carg` of `conjProduct`, written out. -/
theorem fireQdPushesScaledAngle : Obligations.FireQdPushesScaledAngle := by
  refine ⟨decode_fire 2#12, fun s => waits_of_not_fireable (u := .qd), fun s x rest hch hfire => ?_⟩
  have hexec := exec_firingOf_of_fireable (u := .qd) hfire
  rw [fireUnit, fireQd_of_cons hch] at hexec
  exact hexec

/-- Settles O24: the firing of DE. -/
theorem fireDeStepsTheFilter : Obligations.FireDeStepsTheFilter := by
  refine ⟨decode_fire 4#12, fun s => waits_of_not_fireable (u := .de), fun s x rest hch hfire => ?_⟩
  have hexec := exec_firingOf_of_fireable (u := .de) hfire
  rw [fireUnit, fireDe_of_cons hch] at hexec
  exact hexec

/-! ### The angle's range -/

theorem fle_trans {a b c : F32} (hab : fle a b = true) (hbc : fle b c = true) : fle a c = true := by
  simp only [fle, Bool.and_eq_true, decide_eq_true_eq] at hab hbc ⊢
  obtain ⟨⟨ha, -⟩, hab⟩ := hab
  obtain ⟨⟨-, hc⟩, hbc⟩ := hbc
  exact ⟨⟨ha, hc⟩, hab.trans hbc⟩

/-- A value at least `lo` that does not compare equal to `lo` is above it (R10). -/
theorem flt_of_fle_of_not_feq {lo v : F32} (hle : fle lo v = true) (hne : ¬ feq v lo = true) : flt lo v = true := by
  simp only [fle, feq, flt, Bool.and_eq_true, decide_eq_true_eq] at hle hne ⊢
  obtain ⟨⟨hlo, hv⟩, hord⟩ := hle
  exact ⟨⟨hlo, hv⟩, lt_of_le_of_ne hord fun heq => hne ⟨⟨hv, hlo⟩, heq.symm⟩⟩

theorem withSignOf_between {m hi : F32} (y : F32) (hpos : Between (fneg hi) m hi) (hneg : Between (fneg hi) (fneg m) hi) :
    Between (fneg hi) (withSignOf y m) hi := by
  rw [withSignOf]
  split
  · exact hneg
  · exact hpos

theorem pi32_between : Between (fneg pi32) pi32 pi32 := ⟨by decide, by decide⟩

theorem neg_pi32_between : Between (fneg pi32) (fneg pi32) pi32 := ⟨by decide, by decide⟩

theorem halfPi32_le_pi32 : fle halfPi32 pi32 = true ∧ fle (fneg pi32) (fneg halfPi32) = true := by decide

/-- Each branch answers an angle in `[-PI32, PI32]`: an exact one in R11's special cases, else one brought there, or to
`[-HALFPI32, HALFPI32]` inside it. -/
theorem admitAtan2_between (raw : F32 → F32 → F32) {y x : F32} (hy : fnan y = false) (hx : fnan x = false) :
    Between (fneg pi32) (admitAtan2 raw y x) pi32 := by
  obtain ⟨hhi, hlo⟩ := halfPi32_le_pi32
  unfold admitAtan2
  rw [hy, hx, if_neg (by decide)]
  split_ifs
  · exact withSignOf_between y pi32_between neg_pi32_between
  · exact withSignOf_between y ⟨by decide, by decide⟩ ⟨by decide, by decide⟩
  · exact withSignOf_between y pi32_between neg_pi32_between
  · exact withSignOf_between y ⟨by decide, by decide⟩ ⟨by decide, by decide⟩
  · exact within_between pi32_between.1 ⟨by decide, by decide⟩ _
  · obtain ⟨hge, hle⟩ := within_between (lo := fneg halfPi32) (hi := halfPi32) (by decide) ⟨by decide, by decide⟩ (raw y x)
    exact ⟨fle_trans hlo hge, fle_trans hle hhi⟩

/-- What R233 makes of an `atan2` in `[-PI32, PI32]`: the lower bound is replaced, so nothing stays on it. -/
theorem carg_principal {n : Machine.Num} {w : C32} (h : Between (fneg pi32) (n.atan2 w.im w.re) pi32) :
    flt (fneg pi32) (carg n w) = true ∧ fle (carg n w) pi32 = true := by
  obtain ⟨hge, hle⟩ := h
  simp only [carg]
  split_ifs with hzero hlow
  · decide
  · decide
  · exact ⟨flt_of_fle_of_not_feq hge hlow, hle⟩

/-- Settles O51: R11's range of `atan2` is the closed interval, and R233 takes its lower end away. -/
theorem angleIsAPrincipalValue : Obligations.AngleIsAPrincipalValue := fun _ hre him =>
  carg_principal (admitAtan2_between Config.atan2Raw him hre)

/-! ### The outputs of a stream -/

/-- The first sample's output comes first; the rest of the stream is taken from the state it leaves. -/
theorem qdRun_cons (n : Machine.Num) (gain : F32) (u : Qd) (x : C32) (xs : List C32) :
    (Spec.qdRun n gain u (x :: xs)).2 =
      (qdAccept n gain u x).2.toList ++ (Spec.qdRun n gain (qdAccept n gain u x).1 xs).2 := by
  have h := List.foldl_hom (l := xs) (init := ((qdAccept n gain u x).1, ([] : List F32)))
    (fun st => (st.1, (qdAccept n gain u x).2.toList ++ st.2))
    (g₁ := fun st x => ((qdAccept n gain st.1 x).1, st.2 ++ (qdAccept n gain st.1 x).2.toList))
    (g₂ := fun st x => ((qdAccept n gain st.1 x).1, st.2 ++ (qdAccept n gain st.1 x).2.toList))
    (fun st x => by simp)
  simpa [Spec.qdRun] using congrArg Prod.snd h

theorem qdRun_held (n : Machine.Num) (gain : F32) (xs : List C32) : ∀ p : C32,
    (Spec.qdRun n gain ⟨p, true⟩ xs).2 =
      List.zipWith (fun p x => fmul gain (carg n (conjProduct x p))) (p :: xs) xs := by
  induction xs with
  | nil => exact fun _ => rfl
  | cons x xs ih =>
    intro p
    rw [qdRun_cons, qdAccept_held, ih]
    rfl

/-- From START the outputs are those of the neighbours in the stream (R232). -/
theorem qdRun_start (n : Machine.Num) (gain : F32) (xs : List C32) :
    (Spec.qdRun n gain ⟨C32.zero, false⟩ xs).2 =
      List.zipWith (fun p x => fmul gain (carg n (conjProduct x p))) xs xs.tail := by
  cases xs with
  | nil => rfl
  | cons x xs =>
    rw [qdRun_cons, qdAccept_first, qdRun_held]
    rfl

theorem zipWith_tail_map_range {α β : Type} {f : α → α → β} {h : ℕ → α} {c : β} (hf : ∀ k, f (h k) (h (k + 1)) = c)
    (n : ℕ) : List.zipWith f ((List.range n).map h) ((List.range n).map h).tail = List.replicate (n - 1) c := by
  refine List.ext_getElem (by simp) fun i _ _ => ?_
  simp [hf]

/-- A stream whose neighbours all have one angle gives that angle, scaled, once less than it has samples. -/
theorem qdRun_start_map_range {n : Machine.Num} {gain angle : F32} {h : ℕ → C32}
    (hangle : ∀ k, carg n (conjProduct (h (k + 1)) (h k)) = angle) (len : ℕ) :
    (Spec.qdRun n gain ⟨C32.zero, false⟩ ((List.range len).map h)).2 = List.replicate (len - 1) (fmul gain angle) := by
  rw [qdRun_start]
  exact zipWith_tail_map_range (fun k => by rw [hangle k]) len

/-! ### Sums and products without NaN -/

/-- Neither a NaN nor signed. -/
structure NonNeg (a : F32) : Prop where
  fnan_eq : fnan a = false
  fsign_eq : fsign a = false

theorem ffinite_of_not_fnan_of_not_finf {a : F32} (hn : fnan a = false) (hi : finf a = false) : ffinite a = true := by
  rw [ffinite_of_not, hn, hi]
  rfl

theorem nonNeg_fpack {m : ℕ} (h : m ≤ 0x7F800000) : NonNeg (fpack false m) where
  fnan_eq := by rw [fnan, fmag_fpack (by omega), decide_eq_false (by omega)]
  fsign_eq := fsign_fpack (by omega)

theorem nonNeg_fmul_self {a : F32} (h : fnan a = false) : NonNeg (fmul a a) := by
  have hsign : (fsign a != fsign a) = false := bne_self_eq_false _
  cases hinf : finf a with
  | true =>
    rw [fmul_of_inf_left hinf h, fzero_of_finf hinf, hsign, if_neg (by decide)]
    exact nonNeg_fpack le_rfl
  | false =>
    have hfin := ffinite_of_not_fnan_of_not_finf h hinf
    rw [fmul_of_finite hfin hfin, hsign]
    exact nonNeg_fpack (Nat.min_le_right _ _)

theorem NonNeg.fval_nonneg {a : F32} (h : NonNeg a) : 0 ≤ fval a := by
  simp [fval, h.fsign_eq]

theorem NonNeg.fadd {a b : F32} (ha : NonNeg a) (hb : NonNeg b) : NonNeg (fadd a b) := by
  have hsigns : ¬ (finf b = true ∧ fsign a ≠ fsign b) := fun h => h.2 (ha.fsign_eq.trans hb.fsign_eq.symm)
  cases hia : finf a with
  | true => rwa [fadd_of_inf_left hia hb.fnan_eq, if_neg hsigns]
  | false =>
    have hfa := ffinite_of_not_fnan_of_not_finf ha.fnan_eq hia
    cases hib : finf b with
    | true => rwa [(fadd_of_inf_of_finite hib hfa).2]
    | false =>
      have hfb := ffinite_of_not_fnan_of_not_finf hb.fnan_eq hib
      have hnotneg : ¬ fval a + fval b < 0 := not_lt.2 (add_nonneg ha.fval_nonneg hb.fval_nonneg)
      rw [fadd_of_finite hfa hfb, ha.fsign_eq, decide_eq_false hnotneg]
      split
      · exact nonNeg_fpack (Nat.zero_le _)
      · exact nonNeg_fpack (Nat.min_le_right _ _)

/-- A sum that is no NaN has no NaN operand. -/
theorem fnan_of_fnan_fadd {a b : F32} (h : fnan (fadd a b) = false) : fnan a = false ∧ fnan b = false := by
  refine ⟨?_, ?_⟩ <;> refine Bool.eq_false_iff.2 fun hnan => ?_
  · simp [fadd_of_nan (.inl hnan)] at h
  · simp [fadd_of_nan (.inr hnan)] at h

/-- A finite product has no NaN factor. -/
theorem fnan_of_ffinite_fmul {a b : F32} (h : ffinite (fmul a b) = true) : fnan a = false ∧ fnan b = false := by
  refine ⟨?_, ?_⟩ <;> refine Bool.eq_false_iff.2 fun hnan => ?_
  · simp [fmul_of_nan (.inl hnan), ffinite_of_not] at h
  · simp [fmul_of_nan (.inr hnan), ffinite_of_not] at h

/-- A sum that is neither a NaN nor a zero is negated with its operands. (An exact sum 0 may be `+0` both times.) -/
theorem fadd_fneg_fneg {a b : F32} (hn : fnan (fadd a b) = false) (hz : fzero (fadd a b) = false) :
    fadd (fneg a) (fneg b) = fneg (fadd a b) := by
  obtain ⟨hna, hnb⟩ := fnan_of_fnan_fadd hn
  have hna' : fnan (fneg a) = false := (fnan_fneg a).trans hna
  have hnb' : fnan (fneg b) = false := (fnan_fneg b).trans hnb
  cases hia : finf a with
  | true =>
    have hsigns : ¬ (finf b = true ∧ fsign a ≠ fsign b) := by
      intro hopp
      simp [fadd_of_inf_left hia hnb, hopp] at hn
    rw [fadd_of_inf_left hia hnb, fadd_of_inf_left ((finf_fneg a).trans hia) hnb', if_neg hsigns,
      if_neg (by simpa using hsigns)]
  | false =>
    have hfa := ffinite_of_not_fnan_of_not_finf hna hia
    cases hib : finf b with
    | true =>
      rw [(fadd_of_inf_of_finite hib hfa).2,
        (fadd_of_inf_of_finite ((finf_fneg b).trans hib) ((ffinite_fneg a).trans hfa)).2]
    | false =>
      have hfb := ffinite_of_not_fnan_of_not_finf hnb hib
      rw [fadd_of_finite hfa hfb] at hz ⊢
      rw [fadd_of_finite ((ffinite_fneg a).trans hfa) ((ffinite_fneg b).trans hfb), fval_fneg, fval_fneg, ← neg_add]
      split at hz
      next => simp [fzero, fmag_fpack] at hz
      next hne =>
        have hsign : decide (-(fval a + fval b) < 0) = !decide (fval a + fval b < 0) := by
          rw [← decide_not]
          exact decide_eq_decide.2 (by omega)
        rw [if_neg (neg_ne_zero.2 hne), if_neg hne, Int.natAbs_neg, hsign, fpack_not _ (roundMag_lt _ _)]

/-! ### A quarter turn -/

/-- Samples mirrored at the real axis have the mirrored product, where its imaginary lane is neither a NaN nor a zero. -/
theorem conjProduct_conjugate {x p : C32} (him : fnan (fmul x.im p.im) = false)
    (hn : fnan (conjProduct x p).im = false) (hz : fzero (conjProduct x p).im = false) :
    conjProduct (Spec.conjugate x) (Spec.conjugate p) = Spec.conjugate (conjProduct x p) := by
  obtain ⟨hn₁, hn₂⟩ := fnan_of_fnan_fadd hn
  rw [fnan_fneg] at hn₂
  have hre : fmul (fneg x.im) (fneg p.im) = fmul x.im p.im := by
    rw [fmul_fneg_left (by rwa [fmul_fneg_right him, fnan_fneg]), fmul_fneg_right him, fneg_fneg]
  have hdiff : fsub (fmul (fneg x.im) p.re) (fmul x.re (fneg p.im)) = fneg (fsub (fmul x.im p.re) (fmul x.re p.im)) := by
    rw [fmul_fneg_left hn₁, fmul_fneg_right hn₂]
    exact fadd_fneg_fneg hn hz
  simp only [conjProduct, Spec.conjugate, hre, hdiff]

/-- The squared envelope `re^2 + im^2`, rounded as QD rounds it. -/
def envelope (z : C32) : F32 := fadd (fmul z.re z.re) (fmul z.im z.im)

/-- What R234 needs of a sample so that a quarter turn is measured exactly: `re * im` cancels, and there is an envelope. -/
structure Turnable (z : C32) : Prop where
  cross_finite : ffinite (fmul z.re z.im) = true
  envelope_ne_zero : fzero (envelope z) = false

section
variable {z : C32}

theorem Turnable.nonNeg_squares (h : Turnable z) : NonNeg (fmul z.re z.re) ∧ NonNeg (fmul z.im z.im) := by
  obtain ⟨hre, him⟩ := fnan_of_ffinite_fmul h.cross_finite
  exact ⟨nonNeg_fmul_self hre, nonNeg_fmul_self him⟩

theorem Turnable.nonNeg_envelope (h : Turnable z) : NonNeg (envelope z) :=
  h.nonNeg_squares.1.fadd h.nonNeg_squares.2

theorem Turnable.cross_not_nan (h : Turnable z) : fnan (fmul z.re z.im) = false := by
  have hcross := h.cross_finite
  rw [ffinite_of_not, Bool.and_eq_true, Bool.not_eq_true'] at hcross
  exact hcross.1

theorem Turnable.fmul_neg_cross (h : Turnable z) : fmul (fneg z.im) z.re = fneg (fmul z.re z.im) := by
  have hcross := h.cross_not_nan
  rw [fmul_comm] at hcross
  rw [fmul_fneg_left hcross, fmul_comm]

theorem Turnable.fmul_neg_im_self (h : Turnable z) : fmul (fneg z.im) z.im = fneg (fmul z.im z.im) :=
  fmul_fneg_left h.nonNeg_squares.2.fnan_eq

/-- A sample times the conjugate of the one a quarter turn before: the cross products cancel to `+0`, the squares add. -/
theorem Turnable.conjProduct_quarterTurn (h : Turnable z) : conjProduct (Spec.quarterTurn z) z = ⟨0#32, envelope z⟩ := by
  have hre : fadd (fmul (fneg z.im) z.re) (fmul z.re z.im) = 0#32 := by
    rw [h.fmul_neg_cross, fadd_comm ((fnan_fneg _).trans h.cross_not_nan) h.cross_not_nan, fadd_fneg_self h.cross_finite]
  have him : fsub (fmul z.re z.re) (fmul (fneg z.im) z.im) = envelope z := by
    rw [h.fmul_neg_im_self, fsub_fneg, envelope]
  simp only [conjProduct, Spec.quarterTurn, hre, him]

theorem Turnable.conjProduct_conjugate_quarterTurn (h : Turnable z) :
    conjProduct (Spec.conjugate (Spec.quarterTurn z)) (Spec.conjugate z) = ⟨0#32, fneg (envelope z)⟩ := by
  have hturn := h.conjProduct_quarterTurn
  have hn : fnan (conjProduct (Spec.quarterTurn z) z).im = false := by rw [hturn, h.nonNeg_envelope.fnan_eq]
  have hz : fzero (conjProduct (Spec.quarterTurn z) z).im = false := by rw [hturn, h.envelope_ne_zero]
  rw [conjProduct_conjugate (x := Spec.quarterTurn z) h.cross_not_nan hn hz, hturn, Spec.conjugate]

theorem Turnable.quarterTurn (h : Turnable z) : Turnable (Spec.quarterTurn z) where
  cross_finite := by
    show ffinite (fmul (fneg z.im) z.re) = true
    rw [h.fmul_neg_cross, ffinite_fneg, h.cross_finite]
  envelope_ne_zero := by
    have hsq : fmul (fneg z.im) (fneg z.im) = fmul z.im z.im := by
      have hneg := h.fmul_neg_im_self
      rw [fmul_fneg_right (by rw [hneg, fnan_fneg]; exact h.nonNeg_squares.2.fnan_eq), hneg, fneg_fneg]
    show fzero (fadd (fmul (fneg z.im) (fneg z.im)) (fmul z.re z.re)) = false
    rw [hsq, fadd_comm h.nonNeg_squares.2.fnan_eq h.nonNeg_squares.1.fnan_eq]
    exact h.envelope_ne_zero

theorem Turnable.quarterTurns (h : Turnable z) (k : ℕ) : Turnable (Spec.quarterTurn^[k] z) := by
  induction k with
  | zero => exact h
  | succ k ih =>
    rw [Function.iterate_succ_apply']
    exact ih.quarterTurn

end

/-- On the imaginary axis, off 0, the angle is R11's exact one. -/
theorem carg_of_re_zero {w : C32} (hre : fzero w.re = true) (hn : fnan w.im = false) (hz : fzero w.im = false) :
    carg num w = withSignOf w.im halfPi32 := by
  have hatan : num.atan2 w.im w.re = withSignOf w.im halfPi32 := by
    show admitAtan2 _ w.im w.re = _
    simp [admitAtan2, hn, hz, hre, fnan_of_fzero hre]
  have hlow : feq (withSignOf w.im halfPi32) (fneg pi32) = false := by
    rw [withSignOf]
    split <;> decide
  simp [carg, hre, hz, hatan, hlow]

theorem Turnable.carg_forwards {z : C32} (h : Turnable z) :
    carg num (conjProduct (Spec.quarterTurn z) z) = halfPi32 := by
  rw [h.conjProduct_quarterTurn, carg_of_re_zero rfl h.nonNeg_envelope.fnan_eq h.envelope_ne_zero, withSignOf,
    h.nonNeg_envelope.fsign_eq]
  rfl

theorem Turnable.carg_backwards {z : C32} (h : Turnable z) :
    carg num (conjProduct (Spec.conjugate (Spec.quarterTurn z)) (Spec.conjugate z)) = fneg halfPi32 := by
  rw [h.conjProduct_conjugate_quarterTurn, carg_of_re_zero rfl ((fnan_fneg _).trans h.nonNeg_envelope.fnan_eq)
    ((fzero_fneg _).trans h.envelope_ne_zero), withSignOf, fsign_fneg, h.nonNeg_envelope.fsign_eq]
  rfl

/-- Settles O50: the outputs of any stream are those of its neighbours; in a stream of quarter turns every sample is
`Turnable`, so every pair of neighbours has the exact angle. -/
theorem qdGivesOneOutputLess : Obligations.QdGivesOneOutputLess := by
  refine fun g => ⟨fun xs => ⟨?_, qdRun_start num g xs⟩, fun z n hcross henv => ⟨?_, ?_⟩⟩
  · rw [qdRun_start, List.length_zipWith, List.length_tail, Nat.min_eq_right (Nat.sub_le _ _)]
  · refine qdRun_start_map_range (fun k => ?_) n
    rw [Function.iterate_succ_apply']
    exact (Turnable.quarterTurns ⟨hcross, henv⟩ k).carg_forwards
  · rw [Spec.quarterTurns, List.map_map]
    refine qdRun_start_map_range (fun k => ?_) n
    rw [Function.comp_apply, Function.comp_apply, Function.iterate_succ_apply']
    exact (Turnable.quarterTurns ⟨hcross, henv⟩ k).carg_backwards

end Sys2Proof.Proofs
end

section
/-! Values in order (00_scope.md R8 to R10): comparing patterns compares the values they encode, and a rounding never
passes a pattern: an exact result between the values of two patterns rounds to a pattern between them. -/

namespace Sys2Proof.Proofs

open Sys2Proof Sys2Proof.Machine

variable {a b v lo hi : F32}

/-! ### The order of values -/

theorem magUnits_le_iff {m n : Nat} : magUnits m ≤ magUnits n ↔ m ≤ n := magUnits_strictMono.le_iff_le

theorem magUnits_eq_zero_iff {m : Nat} : magUnits m = 0 ↔ m = 0 := magUnits_strictMono.injective.eq_iff' rfl

/-- The order of patterns is the order of their values. -/
theorem ford_le_ford_iff (a b : F32) : ford a ≤ ford b ↔ fval a ≤ fval b := by
  have hab := magUnits_le_iff (m := fmag a) (n := fmag b)
  have hba := magUnits_le_iff (m := fmag b) (n := fmag a)
  have ha := magUnits_eq_zero_iff (m := fmag a)
  have hb := magUnits_eq_zero_iff (m := fmag b)
  unfold ford fval
  split <;> split <;> omega

theorem fle_iff : fle a b = true ↔ fnan a = false ∧ fnan b = false ∧ fval a ≤ fval b := by
  simp [fle, ford_le_ford_iff, and_assoc]

theorem flt_iff : flt a b = true ↔ fnan a = false ∧ fnan b = false ∧ fval a < fval b := by
  have hlt : ford a < ford b ↔ fval a < fval b := by
    rw [← not_le, ← not_le, ford_le_ford_iff]
  simp [flt, hlt, and_assoc]

theorem between_iff (hlo : fnan lo = false) (hhi : fnan hi = false) :
    Between lo v hi ↔ fnan v = false ∧ fval lo ≤ fval v ∧ fval v ≤ fval hi := by
  simp only [Between, fle_iff, hlo, hhi, true_and]
  tauto

theorem fnan_of_ffinite (h : ffinite a = true) : fnan a = false := by
  rw [ffinite_of_not, Bool.and_eq_true, Bool.not_eq_true'] at h
  exact h.1

theorem natAbs_ford (a : F32) : (ford a).natAbs = fmag a := by
  unfold ford
  split <;> omega

/-- Between finite bounds there are only finite patterns. -/
theorem ffinite_of_between (hlo : ffinite lo = true) (hhi : ffinite hi = true) (h : Between lo v hi) :
    ffinite v = true := by
  obtain ⟨hge, hle⟩ := h
  simp only [fle, Bool.and_eq_true, decide_eq_true_eq] at hge hle
  obtain ⟨-, hge⟩ := hge
  obtain ⟨-, hle⟩ := hle
  simp only [ffinite, decide_eq_true_eq, ← natAbs_ford] at hlo hhi ⊢
  omega

theorem between_of_between {lo' hi' : F32} (h : Between lo v hi) (hlo : fle lo' lo = true) (hhi : fle hi hi' = true) :
    Between lo' v hi' := ⟨fle_trans hlo h.1, fle_trans h.2 hhi⟩

/-! ### Rounding passes no pattern -/

theorem le_roundMag {p q m : Nat} (hq : 0 < q) (hm : m ≤ 0x7F800000) (h : magUnits m * q ≤ p) : m ≤ roundMag p q := by
  have hdown : m ≤ roundDown p q := by
    by_contra hgt
    have hle := Nat.mul_le_mul_right q (magUnits_le_iff.2 (Nat.succ_le_of_lt (not_le.1 hgt)))
    rw [Nat.succ_eq_add_one, magUnits_roundDown_succ] at hle
    have hp := magUnits_roundDown p q
    have hrem := Nat.mod_lt p (gap_pos (p := p) hq)
    omega
  rcases roundMag_cases p q with ⟨-, hr⟩ | ⟨-, hr⟩ <;> omega

theorem roundMag_le {p q m : Nat} (hq : 0 < q) (h : p ≤ magUnits m * q) : roundMag p q ≤ m := by
  have hp := magUnits_roundDown p q
  have hgap := gap_pos (p := p) hq
  have hdown : roundDown p q ≤ m := by
    rw [← magUnits_le_iff, ← Nat.mul_le_mul_right_iff hq]
    omega
  rcases roundMag_cases p q with ⟨hup, hr⟩ | ⟨-, hr⟩
  · have hne : roundDown p q ≠ m := by
      rintro rfl
      unfold RoundsUp at hup
      omega
    omega
  · omega

/-- `v` is the rounding of the exact `n / q` units of 2^-149; that of an exact 0 is a zero of either sign. -/
structure Rounds (n : Int) (q : Nat) (v : F32) : Prop where
  fmag_eq : fmag v = roundMag n.natAbs q
  fsign_eq : n ≠ 0 → fsign v = decide (n < 0)

theorem roundMag_zero_left (q : Nat) : roundMag 0 q = 0 := by simp [roundMag]

theorem rounds_fadd (ha : ffinite a = true) (hb : ffinite b = true) : Rounds (fval a + fval b) 1 (fadd a b) := by
  rw [fadd_of_finite ha hb]
  split
  next hzero =>
    refine ⟨?_, fun hne => absurd hzero hne⟩
    rw [hzero, Int.natAbs_zero, roundMag_zero_left, fmag_fpack (by decide)]
  next => exact ⟨fmag_fpack_roundMag _ _ _, fun _ => fsign_fpack_roundMag _ _ _⟩

theorem rounds_fsub (ha : ffinite a = true) (hb : ffinite b = true) : Rounds (fval a - fval b) 1 (fsub a b) := by
  rw [sub_eq_add_neg, ← fval_fneg]
  exact rounds_fadd ha ((ffinite_fneg b).trans hb)

/-- A pattern is negative where its value is; only zeros have a sign their value does not show. -/
theorem fsign_eq_decide_fval (h : fval a ≠ 0) : fsign a = decide (fval a < 0) := by
  unfold fval at h ⊢
  cases hs : fsign a <;> simp [hs] at h ⊢
  omega

theorem rounds_fmul (ha : ffinite a = true) (hb : ffinite b = true) :
    Rounds (fval a * fval b) (2 ^ 149) (fmul a b) := by
  rw [fmul_of_finite ha hb]
  refine ⟨fmag_fpack_roundMag _ _ _, fun hne => ?_⟩
  obtain ⟨hna, hnb⟩ := mul_ne_zero_iff.1 hne
  rw [fsign_fpack_roundMag, fsign_eq_decide_fval hna, fsign_eq_decide_fval hnb]
  rcases lt_or_gt_of_ne hna with ha0 | ha0 <;> rcases lt_or_gt_of_ne hnb with hb0 | hb0
  · simp [ha0, hb0, (mul_pos_of_neg_of_neg ha0 hb0).not_gt]
  · simp [ha0, hb0.not_gt, mul_neg_of_neg_of_pos ha0 hb0]
  · simp [ha0.not_gt, hb0, mul_neg_of_pos_of_neg ha0 hb0]
  · simp [ha0.not_gt, hb0.not_gt, (mul_pos ha0 hb0).not_gt]

theorem Rounds.fval_eq {n : Int} {q : Nat} (h : Rounds n q v) :
    fval v = if n < 0 then -(magUnits (roundMag n.natAbs q) : Int) else magUnits (roundMag n.natAbs q) := by
  rcases eq_or_ne n 0 with rfl | hne
  · simp [fval, h.fmag_eq, roundMag_zero_left, magUnits]
  · simp [fval, h.fmag_eq, h.fsign_eq hne]

theorem Rounds.neg {n : Int} {q : Nat} (h : Rounds n q v) : Rounds (-n) q (fneg v) where
  fmag_eq := by rw [fmag_fneg, h.fmag_eq, Int.natAbs_neg]
  fsign_eq hne := by
    have hn : n ≠ 0 := neg_ne_zero.1 hne
    rw [fsign_fneg, h.fsign_eq hn, ← decide_not]
    exact decide_eq_decide.2 (by omega)

/-- A pattern whose value is at most the exact result is at most its rounding. -/
theorem Rounds.fval_le {n : Int} {q : Nat} (h : Rounds n q v) (hq : 0 < q) (hlo : ffinite lo = true)
    (hle : fval lo * q ≤ n) : fval lo ≤ fval v := by
  have hfin : fmag lo < 0x7F800000 := by simpa [ffinite] using hlo
  rw [h.fval_eq]
  rcases lt_or_ge n 0 with hneg | hpos <;> cases hs : fsign lo
  · have hnonneg : (0 : Int) ≤ magUnits (fmag lo) * q := by positivity
    simp only [fval, hs] at hle
    exact absurd (hnonneg.trans hle) hneg.not_ge
  · have hexact : n.natAbs ≤ magUnits (fmag lo) * q := by
      zify
      rw [abs_of_neg hneg]
      simpa [fval, hs, neg_le] using hle
    have hround := magUnits_le_iff.2 (roundMag_le hq hexact)
    simp only [fval, hs, hneg, ↓reduceIte]
    omega
  · have hexact : magUnits (fmag lo) * q ≤ n.natAbs := by
      zify
      simpa [fval, hs, abs_of_nonneg hpos] using hle
    have hround := magUnits_le_iff.2 (le_roundMag hq hfin.le hexact)
    simpa [fval, hs, hpos.not_gt] using hround
  · simp only [fval, hs, hpos.not_gt, ↓reduceIte]
    omega

/-- A pattern whose value is at least the exact result is at least its rounding. -/
theorem Rounds.le_fval {n : Int} {q : Nat} (h : Rounds n q v) (hq : 0 < q) (hhi : ffinite hi = true)
    (hle : n ≤ fval hi * q) : fval v ≤ fval hi := by
  have hneg := h.neg.fval_le hq ((ffinite_fneg hi).trans hhi) (by rw [fval_fneg]; linarith)
  rw [fval_fneg, fval_fneg] at hneg
  exact neg_le_neg_iff.1 hneg

theorem Rounds.fnan_eq {n : Int} {q : Nat} (h : Rounds n q v) : fnan v = false := by
  rw [fnan, h.fmag_eq]
  exact decide_eq_false (Nat.min_le_right _ _).not_gt

/-- The rounding of an exact result between the values of two finite patterns lies between them. -/
theorem Rounds.between {n : Int} {q : Nat} (h : Rounds n q v) (hq : 0 < q) (hlo : ffinite lo = true)
    (hhi : ffinite hi = true) (hge : fval lo * q ≤ n) (hle : n ≤ fval hi * q) : Between lo v hi :=
  (between_iff (fnan_of_ffinite hlo) (fnan_of_ffinite hhi)).2
    ⟨h.fnan_eq, h.fval_le hq hlo hge, h.le_fval hq hhi hle⟩

theorem fadd_between (ha : ffinite a = true) (hb : ffinite b = true) (hlo : ffinite lo = true) (hhi : ffinite hi = true)
    (hge : fval lo ≤ fval a + fval b) (hle : fval a + fval b ≤ fval hi) : Between lo (fadd a b) hi :=
  (rounds_fadd ha hb).between Nat.one_pos hlo hhi (by simpa using hge) (by simpa using hle)

theorem fsub_between (ha : ffinite a = true) (hb : ffinite b = true) (hlo : ffinite lo = true) (hhi : ffinite hi = true)
    (hge : fval lo ≤ fval a - fval b) (hle : fval a - fval b ≤ fval hi) : Between lo (fsub a b) hi :=
  (rounds_fsub ha hb).between Nat.one_pos hlo hhi (by simpa using hge) (by simpa using hle)

theorem fmul_between (ha : ffinite a = true) (hb : ffinite b = true) (hlo : ffinite lo = true) (hhi : ffinite hi = true)
    (hge : fval lo * 2 ^ 149 ≤ fval a * fval b) (hle : fval a * fval b ≤ fval hi * 2 ^ 149) :
    Between lo (fmul a b) hi :=
  (rounds_fmul ha hb).between (by positivity) hlo hhi (by exact_mod_cast hge) (by exact_mod_cast hle)

end Sys2Proof.Proofs
end

section
/-! The phase wrap (44_costas_loop.md R267): within two turns the loops of the rule stop after at most two rounds, so
the bound the model puts on them is never met. -/

namespace Sys2Proof.Proofs

open Sys2Proof Sys2Proof.Machine

variable {p x y : F32}

/-- Bounds that are each other's negations bound the magnitude of the value. -/
theorem between_fneg_iff {hi v : F32} (hhi : fnan hi = false) :
    Between (fneg hi) v hi ↔ fnan v = false ∧ |fval v| ≤ fval hi := by
  rw [between_iff ((fnan_fneg hi).trans hhi) hhi, fval_fneg, abs_le]

theorem fval_twoPi32 : fval twoPi32 = 2 * fval pi32 := by decide

theorem fval_pi32_pos : 0 < fval pi32 := by decide

/-! ### One round of a loop -/

theorem wrapDown_of_not_fgt (n : Nat) (h : fgt p pi32 = false) : wrapDown n p = p := by
  cases n <;> simp [wrapDown, h]

theorem wrapDown_succ_of_fgt (n : Nat) (h : fgt p pi32 = true) : wrapDown (n + 1) p = wrapDown n (fsub p twoPi32) := by
  simp [wrapDown, h]

theorem wrapUp_of_not_flt (n : Nat) (h : flt p (fneg pi32) = false) : wrapUp n p = p := by
  cases n <;> simp [wrapUp, h]

theorem wrapUp_succ_of_flt (n : Nat) (h : flt p (fneg pi32) = true) :
    wrapUp (n + 1) p = wrapUp n (fadd p twoPi32) := by
  simp [wrapUp, h]

theorem not_fgt_of_fle (h : fle p x = true) : fgt p x = false := by
  rw [fle_iff] at h
  rw [fgt, Bool.eq_false_iff, Ne, flt_iff]
  omega

theorem not_flt_of_fle (h : fle x p = true) : flt p x = false := by
  rw [fle_iff] at h
  rw [Bool.eq_false_iff, Ne, flt_iff]
  omega

theorem fle_of_not_flt (hp : fnan p = false) (hx : fnan x = false) (h : flt x p = false) : fle p x = true := by
  rw [Bool.eq_false_iff, Ne, flt_iff] at h
  rw [fle_iff]
  exact ⟨hp, hx, not_lt.1 fun hlt => h ⟨hx, hp, hlt⟩⟩

theorem not_flt_neg_pi32_of_fgt (h : fgt p pi32 = true) : flt p (fneg pi32) = false := by
  obtain ⟨-, hp, hgt⟩ := flt_iff.1 h
  have hpos := fval_pi32_pos
  exact not_flt_of_fle (fle_iff.2 ⟨by decide, hp, by rw [fval_fneg]; omega⟩)

/-- A round down takes a value above `PI32` to at least `-PI32`, and its upper bound down by a turn. -/
theorem fsub_twoPi32_between (hp : ffinite p = true) (hy : ffinite y = true) (hgt : fgt p pi32 = true)
    (hle : fval p ≤ fval y + fval twoPi32) : Between (fneg pi32) (fsub p twoPi32) y := by
  obtain ⟨-, -, hlt⟩ := flt_iff.1 hgt
  have htwo := fval_twoPi32
  exact fsub_between hp (by decide) (by decide) hy (by rw [fval_fneg]; omega) (by omega)

/-- A round up takes a value below `-PI32` to at most `PI32`, and its lower bound up by a turn. -/
theorem fadd_twoPi32_between (hp : ffinite p = true) (hy : ffinite y = true) (hlt : flt p (fneg pi32) = true)
    (hge : fval y - fval twoPi32 ≤ fval p) : Between y (fadd p twoPi32) pi32 := by
  obtain ⟨-, -, hlt⟩ := flt_iff.1 hlt
  rw [fval_fneg] at hlt
  have htwo := fval_twoPi32
  exact fadd_between hp (by decide) hy (by decide) (by omega) (by omega)

/-! ### Within a turn one round is enough -/

/-- At most `TWOPI32`, and no less than `-PI32`: the loop down lands within half a turn, and has no use for another round. -/
theorem wrapDown_within_turn (n : Nat) (h : Between (fneg pi32) p twoPi32) :
    Between (fneg pi32) (wrapDown (n + 1) p) pi32 ∧ wrapDown (n + 2) p = wrapDown (n + 1) p := by
  have hfin := ffinite_of_between (by decide) (by decide) h
  cases hgt : fgt p pi32 with
  | false =>
    rw [wrapDown_of_not_fgt _ hgt, wrapDown_of_not_fgt _ hgt]
    exact ⟨⟨h.1, fle_of_not_flt (fnan_of_ffinite hfin) (by decide) hgt⟩, rfl⟩
  | true =>
    obtain ⟨-, -, hle⟩ := fle_iff.1 h.2
    have hround := fsub_twoPi32_between (y := pi32) hfin (by decide) hgt (hle.trans (by decide))
    have hstop := not_fgt_of_fle hround.2
    rw [wrapDown_succ_of_fgt _ hgt, wrapDown_succ_of_fgt _ hgt, wrapDown_of_not_fgt _ hstop,
      wrapDown_of_not_fgt _ hstop]
    exact ⟨hround, rfl⟩

/-- The same of the loop up, from at least `-TWOPI32`. -/
theorem wrapUp_within_turn (n : Nat) (h : Between (fneg twoPi32) p pi32) :
    Between (fneg pi32) (wrapUp (n + 1) p) pi32 ∧ wrapUp (n + 2) p = wrapUp (n + 1) p := by
  have hfin := ffinite_of_between (by decide) (by decide) h
  cases hlt : flt p (fneg pi32) with
  | false =>
    rw [wrapUp_of_not_flt _ hlt, wrapUp_of_not_flt _ hlt]
    exact ⟨⟨fle_of_not_flt (by decide) (fnan_of_ffinite hfin) hlt, h.2⟩, rfl⟩
  | true =>
    obtain ⟨-, -, hge⟩ := fle_iff.1 h.1
    have hround := fadd_twoPi32_between (y := fneg pi32) hfin (by decide) hlt (le_trans (by decide) hge)
    have hstop := not_flt_of_fle hround.1
    rw [wrapUp_succ_of_flt _ hlt, wrapUp_succ_of_flt _ hlt, wrapUp_of_not_flt _ hstop, wrapUp_of_not_flt _ hstop]
    exact ⟨hround, rfl⟩

/-! ### The wrap -/

theorem wrap_of_between (h : Between (fneg pi32) p pi32) : wrap p = p := by
  rw [wrap, wrapDown_of_not_fgt _ (not_fgt_of_fle h.2), wrapUp_of_not_flt _ (not_flt_of_fle h.1)]

/-- At most `TWOPI32`, and no less than `-PI32`: the wrap lands within half a turn. -/
theorem wrap_between_of_le_twoPi32 (h : Between (fneg pi32) p twoPi32) : Between (fneg pi32) (wrap p) pi32 := by
  have hdown := (wrapDown_within_turn 63 h).1
  rwa [wrap, wrapUp_of_not_flt _ (not_flt_of_fle hdown.1)]

/-- At least `-TWOPI32`, and no more than `PI32`: the wrap lands within half a turn. -/
theorem wrap_between_of_ge_neg_twoPi32 (h : Between (fneg twoPi32) p pi32) : Between (fneg pi32) (wrap p) pi32 := by
  rw [wrap, wrapDown_of_not_fgt _ (not_fgt_of_fle h.2)]
  exact (wrapUp_within_turn 63 h).1

/-- Above `PI32` the wrap is that of the value a turn less: the loop does not run out one round later. -/
theorem wrap_of_fgt (hgt : fgt p pi32 = true) (hround : Between (fneg pi32) (fsub p twoPi32) twoPi32) :
    wrap p = wrap (fsub p twoPi32) := by
  rw [wrap, wrapDown_succ_of_fgt _ hgt, wrap, (wrapDown_within_turn 62 hround).2]

/-- Below `-PI32` the wrap is that of the value a turn more. -/
theorem wrap_of_flt (hlt : flt p (fneg pi32) = true) (hgt : fgt p pi32 = false)
    (hround : Between (fneg twoPi32) (fadd p twoPi32) pi32) : wrap p = wrap (fadd p twoPi32) := by
  rw [wrap, wrapDown_of_not_fgt _ hgt, wrapUp_succ_of_flt _ hlt, wrap,
    wrapDown_of_not_fgt _ (not_fgt_of_fle hround.2), (wrapUp_within_turn 62 hround).2]

/-- A value within two turns lies within half a turn, or takes one of the two loops, which brings it within a turn. -/
theorem wrap_cases (h : Between (fneg 0x41490FDB#32) p 0x41490FDB#32) :
    Between (fneg pi32) p pi32 ∨
    (fgt p pi32 = true ∧ flt p (fneg pi32) = false ∧ Between (fneg pi32) (fsub p twoPi32) twoPi32) ∨
    (flt p (fneg pi32) = true ∧ fgt p pi32 = false ∧ Between (fneg twoPi32) (fadd p twoPi32) pi32) := by
  have hfin := ffinite_of_between (by decide) (by decide) h
  have hnan := fnan_of_ffinite hfin
  obtain ⟨-, hge, hle⟩ := (between_iff (by decide) (by decide)).1 h
  cases hgt : fgt p pi32 with
  | true =>
    have hnlt := not_flt_neg_pi32_of_fgt hgt
    exact .inr (.inl ⟨rfl, hnlt, fsub_twoPi32_between hfin (by decide) hgt (hle.trans (by decide))⟩)
  | false =>
    cases hlt : flt p (fneg pi32) with
    | false => exact .inl ⟨fle_of_not_flt (by decide) hnan hlt, fle_of_not_flt hnan (by decide) hgt⟩
    | true =>
      exact .inr (.inr ⟨rfl, rfl, fadd_twoPi32_between hfin (by decide) hlt (le_trans (by decide) hge)⟩)

/-- Settles O55, by the three cases of `wrap_cases`: no loop, the loop down, the loop up. -/
theorem wrapLandsWithinHalfATurn : Obligations.WrapLandsWithinHalfATurn := by
  refine ⟨fun p h => wrap_of_between h, fun p h => ?_⟩
  rcases wrap_cases h with hstay | ⟨hgt, hnlt, hround⟩ | ⟨hlt, hngt, hround⟩
  · rw [wrap_of_between hstay, not_fgt_of_fle hstay.2, not_flt_of_fle hstay.1]
    exact ⟨hstay, nofun, nofun⟩
  · have hwrap := wrap_of_fgt hgt hround
    rw [hnlt]
    exact ⟨hwrap ▸ wrap_between_of_le_twoPi32 hround, fun _ => hwrap, nofun⟩
  · have hwrap := wrap_of_flt hlt hngt hround
    rw [hngt]
    exact ⟨hwrap ▸ wrap_between_of_ge_neg_twoPi32 hround, nofun, fun _ => hwrap⟩

end Sys2Proof.Proofs
end

section
/-! The receiver (44_costas_loop.md R261 to R269, 45_mm_timing.md R293): what accepting a sample does, the samples between
symbols, and the phase error of a negated symbol. -/

namespace Sys2Proof.Proofs

open Sys2Proof Sys2Proof.Machine

variable {s : State} {n : Machine.Num} {g : CfgRegs} {r : Rx}

/-! ### What accepting a sample does -/

/-- Between symbols the sample is held and there is one less to wait for. -/
theorem rxAccept_of_wait (n : Machine.Num) (g : CfgRegs) (h : r.wait ≠ 0#32) (x : C32) :
    rxAccept n g r x =
      ⟨Spec.advancePhase { r with xp := r.xc, xc := x, wait := r.wait - 1#32 }, none, false, false, false⟩ := by
  simp only [rxAccept, if_neg h]
  rfl

/-- At a symbol instant RX computes the symbol of R261. -/
theorem rxAccept_of_instant (n : Machine.Num) (g : CfgRegs) (h : r.wait = 0#32) (x : C32) :
    rxAccept n g r x =
      ⟨Spec.advancePhase (Spec.rxInstant n g r x).1, some (Spec.rxInstant n g r x).2.1,
        (Spec.rxInstant n g r x).2.2.1, (Spec.rxInstant n g r x).2.2.2.1, (Spec.rxInstant n g r x).2.2.2.2⟩ := by
  simp only [rxAccept, if_pos h]
  rfl

theorem fireRx_of_cons {x : C32} {rest : List C32} (h : s.ch.f2 = x :: rest) :
    fireRx s =
      let r := rxAccept num s.cfg s.dp.rx x
      { s with
        ch := { s.ch with f2 := rest, rx := s.ch.rx ++ pushed r.symbol }
        dp := { s.dp with rx := r.rx }
        cnt := { s.cnt with symCount := if r.symbol.isSome then s.cnt.symCount + 1#32 else s.cnt.symCount }
        fsat := s.fsat || r.fsat
        osat := s.osat || r.osat
        nans := s.nans || r.nans } := by
  simp only [fireRx, h]
  rfl

/-- Settles O25: the firing of RX on a sample between symbols and at a symbol instant. -/
theorem fireRxFollowsThePseudocode : Obligations.FireRxFollowsThePseudocode := by
  refine ⟨decode_fire 7#12, fun s => waits_of_not_fireable (u := .rx), fun s x rest hch hfire => ?_⟩
  have hexec := exec_firingOf_of_fireable (u := .rx) hfire
  rw [fireUnit, fireRx_of_cons hch] at hexec
  refine ⟨fun hwait => ?_, fun hwait => ?_⟩
  · rw [rxAccept_of_wait _ _ hwait] at hexec
    simp only [pushed, Option.toList_none, List.append_nil, Bool.or_false] at hexec
    exact hexec
  · rw [rxAccept_of_instant _ _ hwait] at hexec
    exact hexec

/-! ### The samples between symbols -/

theorem rxRun_concat (n : Machine.Num) (g : CfgRegs) (r : Rx) (xs : List C32) (x : C32) :
    Spec.rxRun n g r (xs ++ [x]) =
      ((rxAccept n g (Spec.rxRun n g r xs).1 x).rx,
        (Spec.rxRun n g r xs).2 ++ (rxAccept n g (Spec.rxRun n g r xs).1 x).symbol.toList) := by
  simp only [Spec.rxRun, List.foldl_append, List.foldl_cons, List.foldl_nil]

/-- As long as there are samples to wait for, RX counts them down and emits nothing; by induction on the stream from its
end. -/
theorem rxRun_of_length_le (n : Machine.Num) (g : CfgRegs) (r : Rx) (xs : List C32) :
    xs.length ≤ r.wait.toNat →
      (Spec.rxRun n g r xs).2 = [] ∧ (Spec.rxRun n g r xs).1.wait.toNat = r.wait.toNat - xs.length := by
  induction xs using List.reverseRecOn with
  | nil => exact fun _ => ⟨rfl, rfl⟩
  | append_singleton xs x ih =>
    intro hlen
    rw [List.length_append, List.length_singleton] at hlen ⊢
    obtain ⟨hnone, hwait⟩ := ih (by omega)
    have hne : (Spec.rxRun n g r xs).1.wait ≠ 0#32 := fun h0 => by
      rw [h0, BitVec.toNat_ofNat] at hwait
      omega
    rw [rxRun_concat, rxAccept_of_wait n g hne, hnone]
    refine ⟨rfl, ?_⟩
    show ((Spec.rxRun n g r xs).1.wait - 1#32).toNat = _
    bv_omega

/-- Settles O53: after exactly `wait` samples nothing is left to wait for, so the next sample is a symbol instant. -/
theorem nextSymbolComesAfterTheWait : Obligations.NextSymbolComesAfterTheWait := by
  intro n g r xs x hlen
  obtain ⟨hnone, hwait⟩ := rxRun_of_length_le n g r xs hlen.le
  have hzero : (Spec.rxRun n g r xs).1.wait = 0#32 := BitVec.eq_of_toNat_eq (by simp [hwait, hlen])
  refine ⟨hnone, hzero, (Spec.rxInstant n g (Spec.rxRun n g r xs).1 x).2.1, ?_⟩
  rw [rxRun_concat, hnone, rxAccept_of_instant n g hzero]
  rfl

/-! ### A negated symbol -/

/-- A product does not change where both operands are negated. -/
theorem fmul_fneg_fneg (a b : F32) : fmul (fneg a) (fneg b) = fmul a b := by
  have hsign : ((!fsign a) != !fsign b) = (fsign a != fsign b) := by cases fsign a <;> cases fsign b <;> rfl
  simp only [fmul, fnan_fneg, finf_fneg, fzero_fneg, fmag_fneg, fsign_fneg, hsign]

/-- The absolute value is the magnitude without a sign. -/
theorem toNat_fabs (a : F32) : (fabs a).toNat = fmag a := by
  have hmask : (0x7FFFFFFF#32).toNat = 2 ^ 31 - 1 := by decide
  rw [fabs, BitVec.toNat_and, hmask, Nat.and_two_pow_sub_one_eq_mod, fmag]

theorem fabs_fneg (a : F32) : fabs (fneg a) = fabs a :=
  BitVec.eq_of_toNat_eq (by rw [toNat_fabs, toNat_fabs, fmag_fneg])

theorem fval_ne_zero {a : F32} (h : fzero a = false) : fval a ≠ 0 := by
  rw [fzero, decide_eq_false_iff_not, ← magUnits_eq_zero_iff, ← natAbs_fval] at h
  omega

theorem fgt_zero_iff {a : F32} (h : fnan a = false) : fgt a 0#32 = true ↔ 0 < fval a := by
  rw [fgt, flt_iff, h, show fval 0#32 = 0 from rfl]
  simp only [true_and, show fnan 0#32 = false from rfl]

theorem fneg_fone : fneg fone = fnegOne := by decide

theorem fneg_fnegOne : fneg fnegOne = fone := by decide

/-- Off the imaginary axis a negated symbol has the negated decision (R263). -/
theorem decision_negate {z : C32} (hn : fnan z.re = false) (hz : fzero z.re = false) :
    decision (Spec.negate z) = fneg (decision z) := by
  have hre : fgt (fneg z.re) 0#32 = !fgt z.re 0#32 := by
    have hval := fval_ne_zero hz
    rw [Bool.eq_iff_iff, Bool.not_eq_true', Bool.eq_false_iff, Ne, fgt_zero_iff ((fnan_fneg _).trans hn),
      fgt_zero_iff hn, fval_fneg]
    omega
  rw [decision, decision, Spec.negate, hre]
  cases fgt z.re 0#32
  · exact fneg_fnegOne.symm
  · exact fneg_fone.symm

/-- Settles O54: the decision changes sign with the symbol, so neither argument of the angle changes. -/
theorem phaseErrorIgnoresNegation : Obligations.PhaseErrorIgnoresNegation := by
  intro z hn hz
  rw [decision_negate hn hz, phaseError, phaseError, Spec.negate, fmul_fneg_fneg, fabs_fneg]

end Sys2Proof.Proofs
end

section
/-! What START's check says of the two loops of RX (60_exceptions.md R331 codes 7 to 12), and when a property of RX in RUN
is kept by every step: where START's values have it and accepting a sample keeps it. -/

namespace Sys2Proof.Proofs

open Sys2Proof Sys2Proof.Machine

/-! ### The configuration of the loops -/

/-- A loop gain: a finite value in `[0, 2]` (R331 codes 7 and 10). -/
structure LoopGain (v : F32) : Prop where
  finite : ffinite v = true
  nonneg : 0 ≤ fval v
  le_two : fval v ≤ 2 * 2 ^ 149

/-- What the check says of the carrier loop's configuration. -/
structure CarrierConfigured (g : CfgRegs) : Prop where
  alpha : LoopGain g.rxAlpha
  beta : LoopGain g.rxBeta
  fmin_finite : ffinite g.rxFmin = true
  fmax_finite : ffinite g.rxFmax = true
  fmin_le_fmax : fval g.rxFmin ≤ fval g.rxFmax
  fmin_ge : -fval pi32 ≤ fval g.rxFmin
  fmax_le : fval g.rxFmax ≤ fval pi32

/-- What the check says of the timing loop's configuration; the last clause is R331's code 11 in units of 2^-298. -/
structure TimingConfigured (g : CfgRegs) : Prop where
  gainMu : LoopGain g.rxGainMu
  gainOmega : LoopGain g.rxGainOmega
  mid_finite : ffinite g.rxOmegaMid = true
  rel_finite : ffinite g.rxOmegaRel = true
  rel_nonneg : 0 ≤ fval g.rxOmegaRel
  rel_le : 2 * fval g.rxOmegaRel ≤ 2 ^ 149
  mid_le : fval g.rxOmegaMid ≤ 2 ^ 20 * 2 ^ 149
  step_ge :
    3 * (2 ^ 149 * 2 ^ 149) ≤
      2 * (fval g.rxOmegaMid * (2 ^ 149 - fval g.rxOmegaRel) - fval g.rxGainMu * 2 ^ 149)

/-- The two loops of a configuration that passes the check. -/
theorem loopsConfigured_of_checked {m : Nat} {g : CfgRegs} (h : checkConfig m g = 0#4) :
    CarrierConfigured g ∧ TimingConfigured g := by
  iterate 6 replace h := (not_and_of_ite_eq_zero (by decide) h).2
  obtain ⟨hfinite, h⟩ := not_and_of_ite_eq_zero (by decide) h
  obtain ⟨-, h⟩ := not_and_of_ite_eq_zero (by decide) h
  obtain ⟨hrel, h⟩ := not_and_of_ite_eq_zero (by decide) h
  obtain ⟨hgains, h⟩ := not_and_of_ite_eq_zero (by decide) h
  obtain ⟨hstep, h⟩ := not_and_of_ite_eq_zero (by decide) h
  obtain ⟨hfreq, -⟩ := not_and_of_ite_eq_zero (by decide) h
  simp only [checkedFloats, List.any_cons, List.any_nil, Bool.or_false, Bool.or_eq_true, Bool.not_eq_true', not_or,
    Bool.not_eq_false] at hfinite
  obtain ⟨-, -, hmid, hrelFin, hmu, homega, halpha, hbeta, hfmin, hfmax⟩ := hfinite
  simp only [loopGains, List.any_cons, List.any_nil, Bool.or_false, Bool.or_eq_true, decide_eq_true_eq, not_or,
    not_lt, unitsPerOne, Nat.cast_pow, Nat.cast_ofNat] at hgains
  obtain ⟨⟨hmu0, hmu2⟩, ⟨homega0, homega2⟩, ⟨halpha0, halpha2⟩, hbeta0, hbeta2⟩ := hgains
  simp only [not_or, not_lt, unitsPerOne, Nat.cast_pow, Nat.cast_ofNat, stepTooShort, decide_eq_true_eq,
    fval_fneg] at hrel hstep hfreq
  obtain ⟨hrel0, hrel2⟩ := hrel
  obtain ⟨hmid2, hstep⟩ := hstep
  obtain ⟨hminmax, hmin, hmax⟩ := hfreq
  exact ⟨⟨⟨halpha, halpha0, halpha2⟩, ⟨hbeta, hbeta0, hbeta2⟩, hfmin, hfmax, hminmax, hmin, hmax⟩,
    ⟨⟨hmu, hmu0, hmu2⟩, ⟨homega, homega0, homega2⟩, hmid, hrelFin, hrel0, hrel2, hmid2, hstep⟩⟩

/-! ### A property of RX along a step -/

/-- In RUN the configuration has passed the check and RX's state has the property `Q` under it. -/
def RxInRun (Q : CfgRegs → Rx → Prop) (s : State) : Prop :=
  s.mode = .run → checkConfig Config.ntapsMax s.cfg = 0#4 ∧ Q s.cfg s.dp.rx

/-- `Q` holds of RX as a successful START leaves it (R143), and accepting a sample keeps it. -/
structure KeptByRx (Q : CfgRegs → Rx → Prop) : Prop where
  start : ∀ {g}, checkConfig Config.ntapsMax g = 0#4 → Q g (startDatapath g).rx
  accept : ∀ {g r} (x : C32), checkConfig Config.ntapsMax g = 0#4 → Q g r → Q g (rxAccept num g r x).rx

variable {Q : CfgRegs → Rx → Prop} {s t : State}

/-- Of the nine firings only RX's changes RX's state, and it accepts one sample. -/
theorem fireUnit_rx (u : UnitId) (s : State) :
    (fireUnit u s).dp.rx = s.dp.rx ∨ ∃ x, (fireUnit u s).dp.rx = (rxAccept num s.cfg s.dp.rx x).rx := by
  by_cases hu : u = .rx
  · subst hu
    cases hch : s.ch.f2 with
    | nil => exact .inl (by rw [fireUnit_of_empty (u := .rx) hch])
    | cons x rest => exact .inr ⟨x, by rw [fireUnit, fireRx_of_cons hch]⟩
  · exact .inl (congrArg Prod.fst ((fireUnit_frame u s).owned_other .rx (Ne.symm hu)))

theorem RxInRun.fireUnit (hQ : KeptByRx Q) (u : UnitId) (h : RxInRun Q s) : RxInRun Q (fireUnit u s) := by
  intro hmode
  rw [fireUnit_mode] at hmode
  obtain ⟨hcheck, hrx⟩ := h hmode
  rw [fireUnit_cfg]
  refine ⟨hcheck, ?_⟩
  rcases fireUnit_rx u s with hsame | ⟨x, haccept⟩
  · rwa [hsame]
  · rw [haccept]
    exact hQ.accept x hcheck hrx

/-- A command leaves RUN, or reaches it by a START whose check passes, or does nothing. -/
theorem RxInRun.command (hQ : KeptByRx Q) (v : Word) (h : RxInRun Q s) : RxInRun Q (command v s) := by
  rcases command_cases v s with ⟨-, hc⟩ | ⟨-, -, -, hc⟩ | ⟨-, -, hc⟩ <;> rw [hc]
  · exact nofun
  · rcases start_cases s with ⟨-, hs⟩ | ⟨hcheck, hs⟩ <;> rw [hs]
    · exact nofun
    · exact fun _ => ⟨hcheck, hQ.start hcheck⟩
  · exact h

theorem RxInRun.effect (hQ : KeptByRx Q) {i : Instr} {e : State} (heffect : Effect s i e) (h : RxInRun Q s) :
    RxInRun Q e := by
  cases heffect with
  | unchanged | clearFlags | pushIq | pushAud | popAud | popBit => exact h
  | command _ v => exact h.command hQ v
  | storeCfg _ _ hopen | storeTap _ _ hopen => exact fun hmode => absurd hmode hopen
  | fire _ u choice => exact RxInRun.fireUnit (s := { s with choice }) hQ u h

theorem RxInRun.sameCore (hsame : SameCore s t) (h : RxInRun Q s) : RxInRun Q t := by
  cases hsame
  exact h

/-- What START gives RX and accepting a sample keeps, every step keeps. -/
theorem RxInRun.step (hQ : KeptByRx Q) (h : RxInRun Q s) (hstep : step s = .next t) : RxInRun Q t :=
  step_keeps RxInRun.sameCore nofun (RxInRun.effect hQ) h hstep

end Sys2Proof.Proofs
end

section
/-! The carrier loop's bounds (44_costas_loop.md R266, R267, R271): the phase error is at most a quarter turn, so the phase
before its wrap is at most two turns, and the frequency is clamped. -/

namespace Sys2Proof.Proofs

open Sys2Proof Sys2Proof.Machine

variable {a b x : F32} {g : CfgRegs} {r : Rx}

/-! ### Operations between symmetric bounds -/

theorem fmul_between_fneg (ha : ffinite a = true) (hb : ffinite b = true) (hx : ffinite x = true)
    (h : |fval a| * |fval b| ≤ fval x * 2 ^ 149) : Between (fneg x) (fmul a b) x := by
  rw [← abs_mul, abs_le] at h
  exact fmul_between ha hb ((ffinite_fneg x).trans hx) hx (by rw [fval_fneg]; linarith [h.1]) h.2

theorem fadd_between_fneg (ha : ffinite a = true) (hb : ffinite b = true) (hx : ffinite x = true)
    (h : |fval a| + |fval b| ≤ fval x) : Between (fneg x) (fadd a b) x := by
  obtain ⟨hge, hle⟩ := abs_le.1 ((abs_add_le _ _).trans h)
  exact fadd_between ha hb ((ffinite_fneg x).trans hx) hx (by rwa [fval_fneg]) hle

/-- Finite, and of a magnitude of at most that of `x`. -/
theorem finite_abs_le_of_between (hx : ffinite x = true) (h : Between (fneg x) a x) :
    ffinite a = true ∧ |fval a| ≤ fval x :=
  ⟨ffinite_of_between ((ffinite_fneg x).trans hx) hx h, ((between_fneg_iff (fnan_of_ffinite hx)).1 h).2⟩

/-- A loop gain at most doubles the bound of what it scales. -/
theorem LoopGain.fmul_between {k e : F32} (hk : LoopGain k) (hx : ffinite x = true) (hb : ffinite b = true)
    (he : Between (fneg b) e b) (htwice : 2 * fval b ≤ fval x) : Between (fneg x) (fmul k e) x := by
  obtain ⟨hefin, hele⟩ := finite_abs_le_of_between hb he
  refine fmul_between_fneg hk.finite hefin hx ?_
  calc |fval k| * |fval e| = fval k * |fval e| := by rw [abs_of_nonneg hk.nonneg]
    _ ≤ 2 * 2 ^ 149 * fval b := mul_le_mul hk.le_two hele (abs_nonneg _) (by decide)
    _ ≤ fval x * 2 ^ 149 := by linarith

/-! ### The phase error -/

theorem fsign_fabs (a : F32) : fsign (fabs a) = false := by
  have hlt : fmag a < 2 ^ 31 := Nat.mod_lt _ (by decide)
  rw [fsign_eq_decide, toNat_fabs, decide_eq_false (not_le.2 hlt)]

/-- R264: beside an argument without sign, `atan2` stays within a quarter turn; a NaN becomes `+0` (R270). -/
theorem sanitise_admitAtan2_between (raw : F32 → F32 → F32) (y a : F32) :
    Between (fneg halfPi32) (sanitise (admitAtan2 raw y (fabs a))) halfPi32 := by
  have hzero : Between (fneg halfPi32) 0#32 halfPi32 := ⟨by decide, by decide⟩
  have hatan : fnan (admitAtan2 raw y (fabs a)) = true ∨
      Between (fneg halfPi32) (admitAtan2 raw y (fabs a)) halfPi32 := by
    unfold admitAtan2
    simp only [fsign_fabs, Bool.and_false, Bool.false_eq_true, ↓reduceIte]
    split_ifs
    · exact .inl fnan_qnan
    · exact .inr (withSignOf_between y hzero ⟨by decide, by decide⟩)
    · exact .inr (withSignOf_between y ⟨by decide, by decide⟩ ⟨by decide, by decide⟩)
    · exact .inr (within_between (by decide) hzero _)
  unfold sanitise
  split
  next => exact hzero
  next hnan => exact hatan.resolve_left hnan

/-! ### One sample -/

/-- The carrier half of R271 for one unit state: the clauses of `CarrierBounded` in RUN. -/
structure CarrierOk (g : CfgRegs) (r : Rx) : Prop where
  phase : Between (fneg pi32) r.phi pi32
  frequency : if r.havePrev then Between g.rxFmin r.f g.rxFmax else r.f = 0#32

theorem between_neg_pi32_of_between_bounds (hg : CarrierConfigured g) {f : F32} (h : Between g.rxFmin f g.rxFmax) :
    Between (fneg pi32) f pi32 :=
  between_of_between h (fle_iff.2 ⟨by decide, fnan_of_ffinite hg.fmin_finite, by rw [fval_fneg]; exact hg.fmin_ge⟩)
    (fle_iff.2 ⟨fnan_of_ffinite hg.fmax_finite, by decide, hg.fmax_le⟩)

/-- Before the first symbol and after it, the frequency is at most half a turn. -/
theorem CarrierOk.frequency_between (hg : CarrierConfigured g) (h : CarrierOk g r) : Between (fneg pi32) r.f pi32 := by
  have hfreq := h.frequency
  split at hfreq
  · exact between_neg_pi32_of_between_bounds hg hfreq
  · rw [hfreq]
    exact ⟨by decide, by decide⟩

/-- Advancing a phase of at most a turn by the frequency wraps into half a turn (R267). -/
theorem advancePhase_carrierOk (hphi : Between (fneg twoPi32) r.phi twoPi32)
    (hfreq : if r.havePrev then Between g.rxFmin r.f g.rxFmax else r.f = 0#32)
    (hf : Between (fneg pi32) r.f pi32) : CarrierOk g (Spec.advancePhase r) := by
  refine ⟨?_, hfreq⟩
  obtain ⟨hphifin, hphile⟩ := finite_abs_le_of_between (by decide) hphi
  obtain ⟨hffin, hfle⟩ := finite_abs_le_of_between (by decide) hf
  have hsum : |fval r.phi| + |fval r.f| ≤ fval 0x41490FDB#32 :=
    (add_le_add hphile hfle).trans (by decide)
  exact (wrapLandsWithinHalfATurn.2 _ (fadd_between_fneg hphifin hffin (by decide) hsum)).1

/-- What a symbol instant does to the carrier loop (R266). -/
theorem rxInstant_carrier (g : CfgRegs) (r : Rx) (x : C32) :
    ∃ ep, Between (fneg halfPi32) ep halfPi32 ∧
      (Spec.rxInstant num g r x).1.phi = fadd r.phi (fmul g.rxAlpha ep) ∧
      (Spec.rxInstant num g r x).1.f = fclamp (fadd r.f (fmul g.rxBeta ep)) g.rxFmin g.rxFmax ∧
      (Spec.rxInstant num g r x).1.havePrev = true :=
  ⟨_, sanitise_admitAtan2_between Config.atan2Raw _ _, rfl, rfl, rfl⟩

theorem fadd_pi32_between (ha : Between (fneg pi32) a pi32) (hb : Between (fneg pi32) b pi32) :
    Between (fneg twoPi32) (fadd a b) twoPi32 := by
  obtain ⟨hafin, hale⟩ := finite_abs_le_of_between (by decide) ha
  obtain ⟨hbfin, hble⟩ := finite_abs_le_of_between (by decide) hb
  exact fadd_between_fneg hafin hbfin (by decide) ((add_le_add hale hble).trans (by decide))

theorem rxAccept_carrierOk (hg : CarrierConfigured g) (h : CarrierOk g r) (x : C32) :
    CarrierOk g (rxAccept num g r x).rx := by
  have hf := h.frequency_between hg
  by_cases hwait : r.wait = 0#32
  · rw [rxAccept_of_instant num g hwait]
    obtain ⟨ep, hep, hphi, hfreq, hprev⟩ := rxInstant_carrier g r x
    have hscaled : ∀ {k}, LoopGain k → Between (fneg pi32) (fmul k ep) pi32 := fun hk =>
      hk.fmul_between (by decide) (by decide) hep (by decide)
    have hsum := fadd_pi32_between hf (hscaled hg.beta)
    have hclamp : Between g.rxFmin (Spec.rxInstant num g r x).1.f g.rxFmax := by
      rw [hfreq]
      exact fclamp_between (fnan_of_ffinite (ffinite_of_between (by decide) (by decide) hsum))
        (fle_iff.2 ⟨fnan_of_ffinite hg.fmin_finite, fnan_of_ffinite hg.fmax_finite, hg.fmin_le_fmax⟩)
    refine advancePhase_carrierOk ?_ (by rwa [hprev, if_pos rfl]) (between_neg_pi32_of_between_bounds hg hclamp)
    rw [hphi]
    exact fadd_pi32_between h.phase (hscaled hg.alpha)
  · rw [rxAccept_of_wait num g hwait]
    exact advancePhase_carrierOk (between_of_between h.phase (by decide) (by decide)) h.frequency hf

theorem carrierOk_keptByRx : KeptByRx CarrierOk where
  start _ :=
    { phase := show Between (fneg pi32) 0#32 pi32 from ⟨by decide, by decide⟩
      frequency := rfl }
  accept x hcheck h := rxAccept_carrierOk (loopsConfigured_of_checked hcheck).1 h x

/-- The statement's predicate is `CarrierOk` in RUN. -/
theorem carrierBounded_iff {s : State} : CarrierBounded s ↔ RxInRun CarrierOk s :=
  ⟨fun ⟨hcheck, hphase, hfreq⟩ hmode => ⟨hcheck hmode, hphase hmode, hfreq hmode⟩,
    fun h => ⟨fun hmode => (h hmode).1, fun hmode => (h hmode).2.phase, fun hmode => (h hmode).2.frequency⟩⟩

/-- Settles O36: START's carrier is at rest, and accepting a sample keeps the bounds. -/
theorem everyStepKeepsTheCarrierBounded : Obligations.EveryStepKeepsTheCarrierBounded := fun _ _ hs hstep =>
  carrierBounded_iff.2 ((carrierBounded_iff.1 hs).step carrierOk_keptByRx hstep)

end Sys2Proof.Proofs
end

section
/-! Values of at most 24 bits (00_scope.md R8): each is that of a pattern, so it is its own rounding, and any rounding is
within the distance of two such values from its exact result. -/

namespace Sys2Proof.Proofs

open Sys2Proof Sys2Proof.Machine

variable {v : F32} {n z : Int} {q e : Nat}

/-- A whole number of units of at most 24 significant bits is encoded by a magnitude. -/
theorem exists_magUnits_eq {p : Nat} (hdvd : 2 ^ e ∣ p) (hlt : p < 2 ^ (24 + e)) : ∃ k, magUnits k = p := by
  have hshift : roundShift p 1 ≤ e := by
    rcases Nat.eq_zero_or_pos p with rfl | hpos
    · simp [roundShift]
    · have hlog := (Nat.log2_lt hpos.ne').2 hlt
      rw [roundShift, Nat.div_one]
      omega
  have hrem : p % gap p 1 = 0 := by
    rw [gap, Nat.one_mul]
    exact Nat.mod_eq_zero_of_dvd ((Nat.pow_dvd_pow 2 hshift).trans hdvd)
  have hdown := magUnits_roundDown p 1
  exact ⟨roundDown p 1, by omega⟩

/-- A number of at most 24 significant bits, below 2^128, is the value of a finite pattern. -/
theorem exists_fval_eq (hz : z.natAbs < 2 ^ 24) (he : e ≤ 253) : ∃ w, ffinite w = true ∧ fval w = z * 2 ^ e := by
  have hlt : z.natAbs * 2 ^ e < 2 ^ (24 + e) := by
    rw [pow_add]
    exact Nat.mul_lt_mul_of_pos_right hz (by positivity)
  obtain ⟨k, hk⟩ := exists_magUnits_eq (Nat.dvd_mul_left _ _) hlt
  have hfin : k < 0x7F800000 := by
    rw [← magUnits_strictMono.lt_iff_lt, hk, magUnits_greatest.2]
    have hpow : 2 ^ e ≤ 2 ^ 253 := Nat.pow_le_pow_right (by decide) he
    exact (Nat.mul_lt_mul_of_lt_of_le hz hpow (by positivity)).trans_eq (by decide)
  have hm : k < 2 ^ 31 := by omega
  refine ⟨fpack (decide (z < 0)) k, by rw [ffinite, fmag_fpack hm, decide_eq_true hfin], ?_⟩
  rw [fval, fmag_fpack hm, fsign_fpack hm, hk]
  push_cast
  rcases lt_or_ge z 0 with hneg | hpos
  · simp [hneg, abs_of_neg hneg]
  · simp [hpos.not_gt, abs_of_nonneg hpos]

/-- An exact result of at most 24 significant bits is not rounded. -/
theorem Rounds.of_exact (h : Rounds n 1 v) (hn : n = z * 2 ^ e) (hz : z.natAbs < 2 ^ 24) (he : e ≤ 253) :
    ffinite v = true ∧ fval v = n := by
  obtain ⟨w, hw, hval⟩ := exists_fval_eq hz he
  rw [← hn] at hval
  have hbetween := h.between Nat.one_pos hw hw (by simp [hval]) (by simp [hval])
  obtain ⟨-, hge, hle⟩ := (between_iff (fnan_of_ffinite hw) (fnan_of_ffinite hw)).1 hbetween
  exact ⟨ffinite_of_between hw hw hbetween, (le_antisymm hle hge).trans hval⟩

/-- A value that is not negative has at most 24 significant bits, and exactly 24 where it is a multiple of more than one
unit. -/
theorem exists_fval_eq_shift {a : F32} (h : 0 ≤ fval a) :
    ∃ k shift : Nat, fval a = k * 2 ^ shift ∧ k < 2 ^ 24 ∧ (shift = 0 ∨ 2 ^ 23 ≤ k) := by
  obtain ⟨shift, k, hmag, hk, hs⟩ := exists_shift_significand (fmag a)
  refine ⟨k, shift, ?_, hk, hs⟩
  have habs := natAbs_fval a
  rw [hmag, magUnits_shift_add hk.le hs] at habs
  rw [← Int.natAbs_of_nonneg h, habs]
  push_cast
  rfl

/-- A result of a magnitude below `2^23` times `2^e` units lies between two neighbouring multiples of `2^e` units, which
are both patterns, and so does its rounding: the two differ by at most `2^e`. -/
theorem Rounds.error_le (h : Rounds n q v) (hq : 0 < q) (hn : |n| < 2 ^ 23 * (2 ^ e * q)) (he : e ≤ 253) :
    |fval v * q - n| ≤ 2 ^ e * q := by
  have hunit : (0 : Int) < 2 ^ e * q := by positivity
  obtain ⟨hneg, hpos⟩ := abs_lt.1 hn
  have hlow := Int.ediv_mul_le n hunit.ne'
  have hhigh := Int.lt_ediv_add_one_mul_self n hunit
  have hlower : -(2 ^ 23) ≤ n / (2 ^ e * q) := (Int.le_ediv_iff_mul_le hunit).2 (by linarith)
  have hupper : n / (2 ^ e * q) < 2 ^ 23 := (Int.ediv_lt_iff_lt_mul hunit).2 hpos
  generalize n / (2 ^ e * q) = k at *
  obtain ⟨w, hw, hwval⟩ := exists_fval_eq (z := k) (e := e) (by omega) he
  obtain ⟨w', hw', hwval'⟩ := exists_fval_eq (z := k + 1) (e := e) (by omega) he
  have hge := h.fval_le hq hw (by rw [hwval, mul_assoc]; exact hlow)
  have hle := h.le_fval hq hw' (by rw [hwval', mul_assoc]; exact hhigh.le)
  rw [hwval] at hge
  rw [hwval'] at hle
  have hge' := mul_le_mul_of_nonneg_right hge (Int.natCast_nonneg q)
  have hle' := mul_le_mul_of_nonneg_right hle (Int.natCast_nonneg q)
  rw [abs_le]
  constructor <;> linarith

end Sys2Proof.Proofs
end

section
/-! The timing loop's bounds (45_mm_timing.md R292, R293, R297): the check leaves half a sample for the roundings, so every
step is at least one sample and at most 2^21, and the offset is taken off it exactly. -/

namespace Sys2Proof.Proofs

open Sys2Proof Sys2Proof.Machine

variable {g : CfgRegs} {r : Rx}

/-! ### The bounds of the period -/

/-- What rounding leaves of R331's code 11 for the computed bounds of the period. -/
structure PeriodBounds (g : CfgRegs) (lo hi : F32) : Prop where
  lo_finite : ffinite lo = true
  hi_finite : ffinite hi = true
  mid_between : Between lo g.rxOmegaMid hi
  lo_ge : 2 ^ 149 + fval g.rxGainMu ≤ fval lo
  hi_le : fval hi ≤ 3 * 2 ^ 19 * 2 ^ 149

theorem TimingConfigured.mid_pos (hg : TimingConfigured g) : 0 < fval g.rxOmegaMid := by
  have hrel := hg.rel_le
  have hmu := hg.gainMu.nonneg
  have hstep := hg.step_ge
  have hrest : 0 < 2 ^ 149 - fval g.rxOmegaRel := by omega
  rw [← mul_pos_iff_of_pos_right hrest]
  linarith

theorem TimingConfigured.lim_exact_bounds (hg : TimingConfigured g) :
    0 ≤ fval g.rxOmegaMid * fval g.rxOmegaRel ∧
      fval g.rxOmegaMid * fval g.rxOmegaRel ≤ 2 ^ 19 * 2 ^ 149 * 2 ^ 149 := by
  have hrel := hg.rel_nonneg
  have htwice := mul_le_mul hg.mid_le hg.rel_le (by omega) (by decide)
  exact ⟨mul_nonneg hg.mid_pos.le hrel, by linarith⟩

/-- `lim` of R292 lies in `[0, 2^19]`. -/
theorem TimingConfigured.lim_bounds (hg : TimingConfigured g) :
    ffinite (fmul g.rxOmegaMid g.rxOmegaRel) = true ∧ 0 ≤ fval (fmul g.rxOmegaMid g.rxOmegaRel) ∧
      fval (fmul g.rxOmegaMid g.rxOmegaRel) ≤ 2 ^ 19 * 2 ^ 149 := by
  obtain ⟨hge, hle⟩ := hg.lim_exact_bounds
  have hbound : fval 0x49000000#32 = 2 ^ 19 * 2 ^ 149 := by decide
  have hzero : fval 0#32 = 0 := by decide
  have hlim : Between 0#32 (fmul g.rxOmegaMid g.rxOmegaRel) 0x49000000#32 :=
    fmul_between hg.mid_finite hg.rel_finite (by decide) (by decide) (by rw [hzero]; linarith) (by rw [hbound]; exact hle)
  obtain ⟨-, hge, hle⟩ := (between_iff (by decide) (by decide)).1 hlim
  exact ⟨ffinite_of_between (by decide) (by decide) hlim, hzero.symm.trans_le hge, hle.trans_eq hbound⟩

/-- The computed lower bound is at least `1 + RX_GAIN_MU`: of the half sample that code 11 leaves, the roundings of `lim`
and of the difference take at most a quarter each. -/
theorem TimingConfigured.omegaLo_ge (hg : TimingConfigured g) :
    2 ^ 149 + fval g.rxGainMu ≤ fval (omegaLo g.rxOmegaMid g.rxOmegaRel) := by
  obtain ⟨hexact0, hexact⟩ := hg.lim_exact_bounds
  obtain ⟨hlimfin, hlim0, hlim⟩ := hg.lim_bounds
  have hmid0 := hg.mid_pos
  have hmid := hg.mid_le
  have hstep := hg.step_ge
  have hlimerr := (rounds_fmul hg.mid_finite hg.rel_finite).error_le (e := 147) (by positivity)
    (by rw [abs_of_nonneg hexact0]; push_cast; linarith) (by decide)
  have hloerr := (rounds_fsub hg.mid_finite hlimfin).error_le (e := 147) Nat.one_pos
    (by rw [abs_lt]; constructor <;> push_cast <;> linarith) (by decide)
  obtain ⟨-, hlimerr⟩ := abs_le.1 hlimerr
  obtain ⟨hloerr, -⟩ := abs_le.1 hloerr
  push_cast at hlimerr hloerr
  rw [omegaLo]
  linarith

/-- The period's computed bounds lie about RX_OMEGA_MID. -/
theorem TimingConfigured.periodBounds (hg : TimingConfigured g) :
    PeriodBounds g (omegaLo g.rxOmegaMid g.rxOmegaRel) (omegaHi g.rxOmegaMid g.rxOmegaRel) := by
  obtain ⟨hlimfin, hlim0, hlim⟩ := hg.lim_bounds
  have hmid0 := hg.mid_pos
  have hmid := hg.mid_le
  have hlow : fval 0xC9000000#32 = -(2 ^ 19 * 2 ^ 149) := by decide
  have hhigh : fval 0x49C00000#32 = 3 * 2 ^ 19 * 2 ^ 149 := by decide
  have hlo := fsub_between (lo := 0xC9000000#32) hg.mid_finite hlimfin (by decide) hg.mid_finite (by omega) (by omega)
  have hhi := fadd_between (hi := 0x49C00000#32) hg.mid_finite hlimfin hg.mid_finite (by decide) (by omega) (by omega)
  obtain ⟨-, -, hhile⟩ := fle_iff.1 hhi.2
  exact
    { lo_finite := ffinite_of_between (by decide) hg.mid_finite hlo
      hi_finite := ffinite_of_between hg.mid_finite (by decide) hhi
      mid_between := ⟨hlo.2, hhi.1⟩
      lo_ge := hg.omegaLo_ge
      hi_le := hhile.trans_eq hhigh }

/-! ### A step -/

/-- The timing half of R271 for one unit state: the clauses of `TimingBounded` in RUN. -/
structure TimingOk (g : CfgRegs) (r : Rx) : Prop where
  period : Between (omegaLo g.rxOmegaMid g.rxOmegaRel) r.omega (omegaHi g.rxOmegaMid g.rxOmegaRel)
  offset : fle 0#32 r.mu = true ∧ flt r.mu fone = true
  wait_le : r.wait.toNat ≤ 2 ^ 21

theorem fval_fone : fval fone = 2 ^ 149 := by decide

/-- A period within its bounds is at least `1 + RX_GAIN_MU`, and at most `1.5 * 2^20`. -/
theorem TimingConfigured.fval_period_bounds (hg : TimingConfigured g) {w : F32}
    (h : Between (omegaLo g.rxOmegaMid g.rxOmegaRel) w (omegaHi g.rxOmegaMid g.rxOmegaRel)) :
    ffinite w = true ∧ 2 ^ 149 + fval g.rxGainMu ≤ fval w ∧ fval w ≤ 3 * 2 ^ 19 * 2 ^ 149 := by
  obtain ⟨hlofin, hhifin, -, hlo, hhi⟩ := hg.periodBounds
  obtain ⟨-, hge, hle⟩ := (between_iff (fnan_of_ffinite hlofin) (fnan_of_ffinite hhifin)).1 h
  exact ⟨ffinite_of_between hlofin hhifin h, hlo.trans hge, hle.trans hhi⟩

/-- R297: the step from one symbol to the next is at least one sample, and at most `1.75 * 2^20`. -/
theorem TimingConfigured.step_between (hg : TimingConfigured g) {w et : F32}
    (hw : Between (omegaLo g.rxOmegaMid g.rxOmegaRel) w (omegaHi g.rxOmegaMid g.rxOmegaRel))
    (het : Between fnegOne et fone) : Between fone (fadd w (fmul g.rxGainMu et)) 0x49E00000#32 := by
  obtain ⟨hwfin, hwge, hwle⟩ := hg.fval_period_bounds hw
  obtain ⟨hetfin, hetle⟩ := finite_abs_le_of_between (x := fone) (by decide) het
  have hmu := hg.gainMu
  have hprop : Between (fneg g.rxGainMu) (fmul g.rxGainMu et) g.rxGainMu := by
    refine fmul_between_fneg hmu.finite hetfin hmu.finite ?_
    rw [abs_of_nonneg hmu.nonneg]
    exact mul_le_mul_of_nonneg_left (hetle.trans_eq fval_fone) hmu.nonneg
  obtain ⟨hpropfin, hprople⟩ := finite_abs_le_of_between hmu.finite hprop
  obtain ⟨hlow, hhigh⟩ := abs_le.1 hprople
  have hbound : fval 0x49E00000#32 = 7 * 2 ^ 18 * 2 ^ 149 := by decide
  have hmu2 := hmu.le_two
  exact fadd_between hwfin hpropfin (by decide) (by decide) (by rw [fval_fone]; omega) (by rw [hbound]; omega)

/-- `m1` of R293 lies in `[1, 2^21]`. -/
theorem instant_between {mu step : F32} (hmu : fle 0#32 mu = true ∧ flt mu fone = true)
    (hstep : Between fone step 0x49E00000#32) : Between fone (fadd mu step) 0x4A000000#32 := by
  obtain ⟨hge, hlt⟩ := hmu
  obtain ⟨hmunan, honenan, hlt⟩ := flt_iff.1 hlt
  have hmubetween : Between 0#32 mu fone := ⟨hge, fle_iff.2 ⟨hmunan, honenan, hlt.le⟩⟩
  obtain ⟨-, hmu0, -⟩ := (between_iff (by decide) (by decide)).1 hmubetween
  obtain ⟨-, hge1, hle1⟩ := (between_iff (by decide) (by decide)).1 hstep
  have hzero : fval 0#32 = 0 := by decide
  have hone := fval_fone
  have hstepmax : fval 0x49E00000#32 = 7 * 2 ^ 18 * 2 ^ 149 := by decide
  have hmax : fval 0x4A000000#32 = 2 ^ 21 * 2 ^ 149 := by decide
  exact fadd_between (ffinite_of_between (by decide) (by decide) hmubetween)
    (ffinite_of_between (by decide) (by decide) hstep) (by decide) (by decide) (by omega) (by omega)

/-! ### The offset and the wait -/

theorem rounds_fofInt (n : Int) : Rounds (n * 2 ^ 149) 1 (fofInt n) := by
  have hneg : n * 2 ^ 149 < 0 ↔ n < 0 := by omega
  rw [fofInt, fofFrac]
  refine ⟨?_, fun _ => ?_⟩
  · rw [fmag_fpack_roundMag, Int.natAbs_mul]
    rfl
  · rw [fsign_fpack_roundMag]
    exact decide_eq_decide.2 hneg.symm

/-- A whole number taken off a value below `2^23` that is no less than it leaves a multiple of the value's unit, so it is
taken off exactly. -/
theorem fsub_fofInt_exact {m : F32} {a : Int} (hm : ffinite m = true) (ha : 0 ≤ a) (hge : a * 2 ^ 149 ≤ fval m)
    (hlt : fval m < 2 ^ 23 * 2 ^ 149) :
    ffinite (fsub m (fofInt a)) = true ∧ fval (fsub m (fofInt a)) = fval m - a * 2 ^ 149 := by
  obtain ⟨hafin, haval⟩ := (rounds_fofInt a).of_exact rfl (by omega) (by decide)
  obtain ⟨k, shift, hval, hk, hs⟩ := exists_fval_eq_shift (a := m) (by omega)
  have hshift : shift ≤ 149 := by
    by_contra hgt
    have hpow : (2 : Int) ^ 149 ≤ 2 ^ shift := pow_le_pow_right₀ (by decide) (by omega)
    have hk' : (2 ^ 23 : Int) ≤ k := by omega
    rw [hval] at hlt
    exact absurd (mul_le_mul hk' hpow (by decide) (by omega)) hlt.not_ge
  have hexact : fval m - a * 2 ^ 149 = (k - a * 2 ^ (149 - shift)) * 2 ^ shift := by
    rw [hval, sub_mul, mul_assoc, ← pow_add, Nat.sub_add_cancel hshift]
  have hz0 : (0 : Int) ≤ k - a * 2 ^ (149 - shift) := by
    refine nonneg_of_mul_nonneg_left ?_ (show (0 : Int) < 2 ^ shift by positivity)
    rw [← hexact]
    exact sub_nonneg.2 hge
  have hint : 0 ≤ a * 2 ^ (149 - shift) := by positivity
  rw [← haval] at hexact ⊢
  exact (rounds_fsub hm hafin).of_exact hexact (by omega) (by omega)

/-- R293: for `m` in `[1, 2^21]` its integer part lies there too, and what it leaves lies in `[0, 1)`. -/
theorem ffloor_and_fraction_bounds {m : F32} (h : Between fone m 0x4A000000#32) :
    (1 ≤ ffloor m ∧ ffloor m ≤ 2 ^ 21) ∧
      fle 0#32 (fsub m (fofInt (ffloor m))) = true ∧ flt (fsub m (fofInt (ffloor m))) fone = true := by
  have hfin := ffinite_of_between (by decide) (by decide) h
  obtain ⟨-, hge, hle⟩ := (between_iff (by decide) (by decide)).1 h
  rw [fval_fone] at hge
  rw [show fval 0x4A000000#32 = 2 ^ 21 * 2 ^ 149 by decide] at hle
  have hfloor : ffloor m = fval m / 2 ^ 149 := by
    rw [ffloor, if_pos hfin]
    rfl
  rw [hfloor]
  obtain ⟨hfrac, hval⟩ := fsub_fofInt_exact (a := fval m / 2 ^ 149) hfin (by omega) (by omega) (by omega)
  have hzero : fval 0#32 = 0 := by decide
  have hone := fval_fone
  exact ⟨by omega, fle_iff.2 ⟨by decide, fnan_of_ffinite hfrac, by omega⟩,
    flt_iff.2 ⟨fnan_of_ffinite hfrac, by decide, by omega⟩⟩

/-! ### One sample -/

/-- What a symbol instant does to the timing loop (R292, R293). -/
theorem rxInstant_timing (n : Machine.Num) (g : CfgRegs) (r : Rx) (x : C32) :
    ∃ et omega m, Between fnegOne et fone ∧
      omega = fclamp (fadd r.omega (fmul g.rxGainOmega et)) (omegaLo g.rxOmegaMid g.rxOmegaRel)
        (omegaHi g.rxOmegaMid g.rxOmegaRel) ∧
      m = fadd r.mu (fadd omega (fmul g.rxGainMu et)) ∧
      (Spec.rxInstant n g r x).1.omega = omega ∧
      (Spec.rxInstant n g r x).1.mu = fsub m (fofInt (ffloor m)) ∧
      (Spec.rxInstant n g r x).1.wait = BitVec.ofInt 32 (ffloor m - 1) :=
  ⟨_, _, _, within_between fle_ones zero_between_ones _, rfl, rfl, rfl, rfl, rfl⟩

/-- The period after a symbol is clamped, and what is clamped is no NaN (R292). -/
theorem TimingConfigured.clamp_between (hg : TimingConfigured g) {w et : F32}
    (hw : Between (omegaLo g.rxOmegaMid g.rxOmegaRel) w (omegaHi g.rxOmegaMid g.rxOmegaRel))
    (het : Between fnegOne et fone) :
    Between (omegaLo g.rxOmegaMid g.rxOmegaRel)
      (fclamp (fadd w (fmul g.rxGainOmega et)) (omegaLo g.rxOmegaMid g.rxOmegaRel) (omegaHi g.rxOmegaMid g.rxOmegaRel))
      (omegaHi g.rxOmegaMid g.rxOmegaRel) := by
  obtain ⟨hwfin, hwge, hwle⟩ := hg.fval_period_bounds hw
  have hterm := hg.gainOmega.fmul_between (x := 0x40000000#32) (b := fone) (by decide) (by decide) het (by decide)
  obtain ⟨htermfin, htermle⟩ := finite_abs_le_of_between (by decide) hterm
  have hmu := hg.gainMu.nonneg
  have hsum : Between (fneg 0x4A000000#32) (fadd w (fmul g.rxGainOmega et)) 0x4A000000#32 := by
    refine fadd_between_fneg hwfin htermfin (by decide) ?_
    rw [abs_of_nonneg (by omega)]
    exact (add_le_add hwle htermle).trans (by decide)
  have hmid := hg.periodBounds.mid_between
  exact fclamp_between (fnan_of_ffinite (ffinite_of_between (by decide) (by decide) hsum)) (fle_trans hmid.1 hmid.2)

theorem rxAccept_timingOk (hg : TimingConfigured g) (h : TimingOk g r) (x : C32) :
    TimingOk g (rxAccept num g r x).rx := by
  by_cases hwait : r.wait = 0#32
  · rw [rxAccept_of_instant num g hwait]
    obtain ⟨et, omega, m, het, homega, hm, hperiod, hoffset, hnext⟩ := rxInstant_timing num g r x
    have hclamp := hg.clamp_between h.period het
    rw [← homega] at hclamp
    have hinstant := instant_between h.offset (hg.step_between hclamp het)
    rw [← hm] at hinstant
    obtain ⟨⟨hfloor1, hfloor⟩, hfrac⟩ := ffloor_and_fraction_bounds hinstant
    exact
      { period := hperiod.symm ▸ hclamp
        offset := hoffset.symm ▸ hfrac
        wait_le := by
          show (Spec.rxInstant num g r x).1.wait.toNat ≤ 2 ^ 21
          rw [hnext, BitVec.toNat_ofInt]
          omega }
  · rw [rxAccept_of_wait num g hwait]
    have hwait_le := h.wait_le
    refine ⟨h.period, h.offset, ?_⟩
    show (r.wait - 1#32).toNat ≤ 2 ^ 21
    bv_omega

theorem timingOk_keptByRx : KeptByRx TimingOk where
  start hcheck :=
    { period := (loopsConfigured_of_checked hcheck).2.periodBounds.mid_between
      offset := show fle 0#32 0#32 = true ∧ flt 0#32 fone = true by decide
      wait_le := show (1#32).toNat ≤ 2 ^ 21 by decide }
  accept x hcheck h := rxAccept_timingOk (loopsConfigured_of_checked hcheck).2 h x

/-- The statement's predicate is `TimingOk` in RUN. -/
theorem timingBounded_iff {s : State} : TimingBounded s ↔ RxInRun TimingOk s :=
  ⟨fun ⟨hcheck, hperiod, hoffset, hwait⟩ hmode => ⟨hcheck hmode, hperiod hmode, hoffset hmode, hwait hmode⟩,
    fun h => ⟨fun hmode => (h hmode).1, fun hmode => (h hmode).2.period, fun hmode => (h hmode).2.offset,
      fun hmode => (h hmode).2.wait_le⟩⟩

/-- Settles O37: START's period is RX_OMEGA_MID, and accepting a sample keeps the bounds. -/
theorem everyStepKeepsTheTimingBounded : Obligations.EveryStepKeepsTheTimingBounded := fun _ _ hs hstep =>
  timingBounded_iff.2 ((timingBounded_iff.1 hs).step timingOk_keptByRx hstep)

end Sys2Proof.Proofs
end

section
/-! The differential decoder (46_diff_decoder_slicer.md R311 to R315): the firing of DD, the bits of a stream, and how
many and which they are. -/

namespace Sys2Proof.Proofs

open Sys2Proof Sys2Proof.Machine

variable {s : State} {u : Dd}

/-! ### What the firing does -/

/-- The first symbol is only kept (R311). -/
theorem ddAccept_first (hprev : u.havePrev = false) (z : C32) : ddAccept u z = (⟨z, true, u.skipLeft⟩, none) := by
  rw [ddAccept, hprev, if_neg Bool.false_ne_true]

/-- While there are bits left to skip, one is suppressed and counted off (R313). -/
theorem ddAccept_skip (hprev : u.havePrev = true) (hskip : u.skipLeft ≠ 0#16) (z : C32) :
    ddAccept u z = (⟨z, true, u.skipLeft - 1#16⟩, none) := by
  rw [ddAccept, if_pos hprev, if_pos hskip]

/-- With nothing left to skip the bit is decided and emitted (R311). -/
theorem ddAccept_emit (hprev : u.havePrev = true) (hskip : u.skipLeft = 0#16) (z : C32) :
    ddAccept u z = (⟨z, true, u.skipLeft⟩, some (slice (diffProduct z u.zp))) := by
  rw [ddAccept, if_pos hprev, if_neg (not_not_intro hskip)]

theorem fireDd_of_cons {z : C32} {rest : List C32} (h : s.ch.rx = z :: rest) :
    fireDd s =
      { s with
        ch := { s.ch with rx := rest, bit := s.ch.bit ++ pushed (ddAccept s.dp.dd z).2 }
        dp := { s.dp with dd := (ddAccept s.dp.dd z).1 }
        cnt := { s.cnt with
          bitCount := if (ddAccept s.dp.dd z).2.isSome then s.cnt.bitCount + 1#32 else s.cnt.bitCount } } := by
  simp only [fireDd, h]

/-- Settles O26: the firing of DD, by what accepting the symbol gives in each of R311's three cases. -/
theorem fireDdDecidesOneBit : Obligations.FireDdDecidesOneBit := by
  refine ⟨decode_fire 8#12, fun s => waits_of_not_fireable (u := .dd), fun s z rest hch hfire => ?_⟩
  have hexec := exec_firingOf_of_fireable (u := .dd) hfire
  rw [fireUnit, fireDd_of_cons hch] at hexec
  refine ⟨fun ⟨hprev, hskip⟩ => ?_, fun ⟨hprev, hskip⟩ => ?_, fun hprev => ?_⟩
  · rw [ddAccept_emit hprev hskip] at hexec
    exact hexec
  · rw [ddAccept_skip hprev hskip, pushed, Option.toList_none, List.append_nil] at hexec
    exact hexec
  · rw [ddAccept_first hprev, pushed, Option.toList_none, List.append_nil] at hexec
    exact hexec

/-! ### The bits of a stream -/

/-- The bits decided between neighbours of the stream, before any is suppressed (R311). -/
def decidedBits (zs : List C32) : List Byte := List.zipWith (fun zp z => slice (diffProduct z zp)) zs zs.tail

theorem length_decidedBits (zs : List C32) : (decidedBits zs).length = zs.length - 1 := by
  rw [decidedBits, List.length_zipWith, List.length_tail, min_eq_right (Nat.sub_le _ _)]

theorem decidedBits_cons_cons (p z : C32) (zs : List C32) :
    decidedBits (p :: z :: zs) = slice (diffProduct z p) :: decidedBits (z :: zs) := rfl

theorem ddRun_concat (u : Dd) (zs : List C32) (z : C32) :
    Spec.ddRun u (zs ++ [z]) =
      ((ddAccept (Spec.ddRun u zs).1 z).1, (Spec.ddRun u zs).2 ++ (ddAccept (Spec.ddRun u zs).1 z).2.toList) := by
  simp only [Spec.ddRun, List.foldl_append, List.foldl_cons, List.foldl_nil]

/-- The first symbol's bit comes first; the rest of the stream is taken from the state it leaves. -/
theorem ddRun_cons (u : Dd) (z : C32) (zs : List C32) :
    Spec.ddRun u (z :: zs) =
      ((Spec.ddRun (ddAccept u z).1 zs).1, (ddAccept u z).2.toList ++ (Spec.ddRun (ddAccept u z).1 zs).2) := by
  induction zs using List.reverseRecOn with
  | nil => exact Prod.ext rfl (List.append_nil _).symm
  | append_singleton zs x ih => rw [← List.cons_append, ddRun_concat, ih, ddRun_concat, List.append_assoc]

/-- Beside a held symbol the decided bits come out, less those left to skip; by induction on the stream, a suppressed
bit taking one off the skip count. -/
theorem ddRun_held (zs : List C32) : ∀ (p : C32) (skip : Half),
    (Spec.ddRun ⟨p, true, skip⟩ zs).2 = (decidedBits (p :: zs)).drop skip.toNat := by
  induction zs with
  | nil => exact fun _ _ => List.drop_nil.symm
  | cons z zs ih =>
    intro p skip
    rw [ddRun_cons, decidedBits_cons_cons]
    by_cases hskip : skip = 0#16
    · rw [ddAccept_emit rfl hskip, ih, hskip]
      rfl
    · have hcount : skip.toNat = (skip - 1#16).toNat + 1 := by bv_omega
      rw [ddAccept_skip rfl hskip, ih, hcount, List.drop_succ_cons]
      rfl

/-- From START the bits are those of the neighbours in the stream, the first `DD_SKIP` of them suppressed (R313). -/
theorem ddRun_start (skip : Half) (zs : List C32) :
    (Spec.ddRun ⟨C32.zero, false, skip⟩ zs).2 = (decidedBits zs).drop skip.toNat := by
  cases zs with
  | nil => exact List.drop_nil.symm
  | cons z zs =>
    rw [ddRun_cons, ddAccept_first rfl, ddRun_held]
    rfl

/-- Settles O56: one bit less than symbols is decided, and the skipped ones are dropped. -/
theorem bitCountFollowsTheDiscardLaw : Obligations.BitCountFollowsTheDiscardLaw := by
  intro skip zs
  rw [ddRun_start, List.length_drop, length_decidedBits]

/-! ### Negated and conjugated symbols -/

/-- Negating both symbols negates both factors of each product (R314). -/
theorem diffProduct_negate (z zp : C32) : diffProduct (Spec.negate z) (Spec.negate zp) = diffProduct z zp := by
  simp only [diffProduct, Spec.negate, fmul_fneg_fneg]

/-- Conjugating both symbols negates both factors of the imaginary product and leaves the real one (R315). -/
theorem diffProduct_conjugate (z zp : C32) :
    diffProduct (Spec.conjugate z) (Spec.conjugate zp) = diffProduct z zp := by
  simp only [diffProduct, Spec.conjugate, fmul_fneg_fneg]

/-- A map of the symbols that keeps the product of every two keeps the bits. -/
theorem ddRun_start_map {f : C32 → C32} (hf : ∀ z zp, diffProduct (f z) (f zp) = diffProduct z zp) (skip : Half)
    (zs : List C32) :
    (Spec.ddRun ⟨C32.zero, false, skip⟩ (zs.map f)).2 = (Spec.ddRun ⟨C32.zero, false, skip⟩ zs).2 := by
  have hbits : decidedBits (zs.map f) = decidedBits zs := by
    simp only [decidedBits, ← List.map_tail, List.zipWith_map, hf]
  rw [ddRun_start, ddRun_start, hbits]

/-- Settles O57: neither negation nor conjugation changes the product of two symbols. -/
theorem bitsIgnoreNegationAndConjugation : Obligations.BitsIgnoreNegationAndConjugation := fun skip zs =>
  ⟨ddRun_start_map diffProduct_negate skip zs, ddRun_start_map diffProduct_conjugate skip zs⟩

end Sys2Proof.Proofs
end

section
/-! START's configuration check (60_exceptions.md R331): the code it answers is the lowest that fails, and its
comparisons in units of 2^-149 are those of the values the registers encode. -/

namespace Sys2Proof.Proofs

open Sys2Proof Sys2Proof.Machine

/-! ### The first code that fails -/

/-- What a check that tries the conditions `P` from number `k` on answers: 0 where none holds, else the number of the
first that does. -/
inductive FirstFailing (P : Nat → Prop) (k : Nat) : BitVec 4 → Prop
  | none (hnone : ∀ j, k ≤ j → ¬ P j) : FirstFailing P k 0#4
  | code {r : BitVec 4} (hge : k ≤ r.toNat) (hfails : P r.toNat) (hfirst : ∀ j, k ≤ j → j < r.toNat → ¬ P j) :
    FirstFailing P k r

variable {P : Nat → Prop} {k m : Nat} {r : BitVec 4} {c : CfgRegs}

/-- One line of the check: its condition decides number `k`, what stands after it the numbers from `k + 1` on. -/
theorem FirstFailing.ite {p : Prop} [Decidable p] {code rest : BitVec 4} (hcode : code.toNat = k) (hp : p ↔ P k)
    (hrest : FirstFailing P (k + 1) rest) : FirstFailing P k (if p then code else rest) := by
  have from_succ {j : Nat} (hfail : ¬ p) (hj : k ≤ j) (h : k + 1 ≤ j → ¬ P j) : ¬ P j := by
    obtain rfl | hlt := hj.eq_or_lt
    · exact fun hPk => hfail (hp.2 hPk)
    · exact h hlt
  split
  next h =>
    subst hcode
    exact .code le_rfl (hp.1 h) fun j hge hlt => absurd hge hlt.not_ge
  next h =>
    cases hrest with
    | none hnone => exact .none fun j hj => from_succ h hj (hnone j)
    | code hge hfails hfirst =>
      exact .code (by omega) hfails fun j hj hlt => from_succ h hj fun hj' => hfirst j hj' hlt

theorem FirstFailing.toNat_eq_iff {i : Nat} (h : FirstFailing P k r) (hk : 0 < k) (hi : k ≤ i) :
    r.toNat = i ↔ P i ∧ ∀ j, k ≤ j → j < i → ¬ P j := by
  cases h with
  | none hnone =>
    refine ⟨fun h0 => ?_, fun hPi => absurd hPi.1 (hnone i hi)⟩
    rw [BitVec.toNat_ofNat] at h0
    omega
  | code hge hfails hfirst =>
    refine ⟨?_, fun ⟨hPi, hlower⟩ => ?_⟩
    · rintro rfl
      exact ⟨hfails, hfirst⟩
    · obtain hlt | heq | hgt := lt_trichotomy r.toNat i
      · exact absurd hfails (hlower _ hge hlt)
      · exact heq
      · exact absurd hPi (hfirst i hi hgt)

theorem FirstFailing.eq_zero_iff (h : FirstFailing P k r) (hk : 0 < k) : r = 0#4 ↔ ∀ j, k ≤ j → ¬ P j := by
  cases h with
  | none hnone => exact iff_of_true rfl hnone
  | code hge hfails _ =>
    refine iff_of_false ?_ fun hnone => hnone _ hge hfails
    rintro rfl
    exact absurd hge hk.not_ge

/-! ### Values and units -/

theorem unitsPerOne_pos : (0 : ℚ) < unitsPerOne := by
  norm_num [unitsPerOne]

/-- A magnitude's units are the value `binaryValue` gives it: a subnormal's fraction is its whole pattern (R71). -/
theorem cast_magUnits (n : Nat) :
    (magUnits n : ℚ) / unitsPerOne =
      if n / 2 ^ 23 = 0 then ((n % 2 ^ 23 : Nat) : ℚ) / 2 ^ 149
      else ((2 ^ 23 + n % 2 ^ 23 : Nat) : ℚ) * 2 ^ (n / 2 ^ 23 - 1) / 2 ^ 149 := by
  have hunits : ((unitsPerOne : Nat) : ℚ) = 2 ^ 149 := by rw [unitsPerOne, Nat.cast_pow, Nat.cast_ofNat]
  rw [hunits, magUnits]
  split
  next h =>
    have hmod : n % 2 ^ 23 = n := Nat.mod_eq_of_lt (by omega)
    rw [hmod]
  next => rw [Nat.cast_mul, Nat.cast_pow, Nat.cast_ofNat]

/-- `fval` is the value a pattern encodes, in units of 2^-149. -/
theorem cast_fval (a : F32) : (fval a : ℚ) = binaryValue a * unitsPerOne := by
  have hmag := (div_eq_iff unitsPerOne_pos.ne').1 (cast_magUnits (fmag a))
  rw [binaryValue, fval]
  split
  · rw [Int.cast_neg, Int.cast_natCast, hmag, neg_mul]
  · rw [Int.cast_natCast, hmag]

/-- Two integers compare as the rationals they count in one positive unit. -/
theorem int_lt_iff_of_unit {u x y : ℚ} {i j : Int} (hu : 0 < u) (hi : (i : ℚ) = x * u) (hj : (j : ℚ) = y * u) :
    i < j ↔ x < y := by
  rw [← Int.cast_lt (R := ℚ), hi, hj, mul_lt_mul_iff_left₀ hu]

theorem fval_lt_iff (a b : F32) : fval a < fval b ↔ binaryValue a < binaryValue b :=
  int_lt_iff_of_unit unitsPerOne_pos (cast_fval a) (cast_fval b)

theorem fval_neg_iff (a : F32) : fval a < 0 ↔ binaryValue a < 0 :=
  int_lt_iff_of_unit unitsPerOne_pos (cast_fval a) (by simp)

theorem fval_nonpos_iff (a : F32) : fval a ≤ 0 ↔ binaryValue a ≤ 0 := by
  rw [← not_lt, ← not_lt, not_iff_not]
  exact int_lt_iff_of_unit unitsPerOne_pos (by simp) (cast_fval a)

theorem mul_units_lt_fval_iff (n : Int) (a : F32) : n * unitsPerOne < fval a ↔ (n : ℚ) < binaryValue a :=
  int_lt_iff_of_unit unitsPerOne_pos (by push_cast; rfl) (cast_fval a)

theorem binaryValue_fneg (a : F32) : binaryValue (fneg a) = -binaryValue a := by
  have hneg : binaryValue (fneg a) * unitsPerOne = -binaryValue a * unitsPerOne := by
    rw [← cast_fval, fval_fneg, Int.cast_neg, cast_fval, neg_mul]
  exact mul_right_cancel₀ unitsPerOne_pos.ne' hneg

/-! ### The conditions -/

theorem badNtaps_iff (n : Half) : badNtaps m n = true ↔ n = 0#16 ∨ m < n.toNat := by
  simp only [badNtaps, Bool.or_eq_true, decide_eq_true_eq]

theorem floats_iff_checkFails : ((checkedFloats c).any fun v => !ffinite v) = true ↔ Spec.CheckFails m c 7 := by
  simp only [checkedFloats, Spec.CheckFails, List.any_cons, List.any_nil, Bool.or_false, Bool.or_eq_true,
    Bool.not_eq_true', not_and_or, Bool.not_eq_true]

theorem filter_iff_checkFails :
    (fval c.fmdGain ≤ 0 ∨ fval c.fmdAlpha ≤ 0 ∨ (unitsPerOne : Int) < fval c.fmdAlpha) ↔ Spec.CheckFails m c 8 := by
  have hone := mul_units_lt_fval_iff 1 c.fmdAlpha
  rw [one_mul, Int.cast_one] at hone
  rw [fval_nonpos_iff, fval_nonpos_iff, hone]
  rfl

/-- The half of code 9 is one in units of 2^-150. -/
theorem omegaRel_iff_checkFails :
    (fval c.rxOmegaRel < 0 ∨ (unitsPerOne : Int) < 2 * fval c.rxOmegaRel) ↔ Spec.CheckFails m c 9 := by
  have hhalf : (unitsPerOne : Int) < 2 * fval c.rxOmegaRel ↔ 1 / 2 < binaryValue c.rxOmegaRel :=
    int_lt_iff_of_unit (u := 2 * unitsPerOne) (mul_pos two_pos unitsPerOne_pos) (by push_cast; ring)
      (by push_cast; rw [cast_fval]; ring)
  rw [fval_neg_iff, hhalf]
  rfl

theorem gain_iff (v : F32) :
    (decide (fval v < 0) || decide (2 * (unitsPerOne : Int) < fval v)) = true ↔
      binaryValue v < 0 ∨ 2 < binaryValue v := by
  rw [Bool.or_eq_true, decide_eq_true_eq, decide_eq_true_eq, fval_neg_iff, mul_units_lt_fval_iff, Int.cast_ofNat]

theorem gains_iff_checkFails :
    ((loopGains c).any fun v => decide (fval v < 0) || decide (2 * (unitsPerOne : Int) < fval v)) = true ↔
      Spec.CheckFails m c 10 := by
  simp only [loopGains, List.any_eq_true, gain_iff, List.exists_mem_cons_iff, List.not_mem_nil, false_and, exists_false,
    or_false, or_assoc, Spec.CheckFails]

/-- Code 11's product of two values is counted in units of 2^-298, and its 3/2 makes that 2^-299. -/
theorem stepTooShort_iff (c : CfgRegs) :
    stepTooShort c = true ↔
      binaryValue c.rxOmegaMid * (1 - binaryValue c.rxOmegaRel) - binaryValue c.rxGainMu < 3 / 2 := by
  rw [stepTooShort, decide_eq_true_eq]
  refine int_lt_iff_of_unit (u := 2 * (unitsPerOne * unitsPerOne))
    (mul_pos two_pos (mul_pos unitsPerOne_pos unitsPerOne_pos)) ?_ ?_
  · push_cast
    rw [cast_fval, cast_fval, cast_fval]
    ring
  · push_cast
    ring

theorem omegaMid_iff_checkFails :
    (2 ^ 20 * (unitsPerOne : Int) < fval c.rxOmegaMid ∨ stepTooShort c = true) ↔ Spec.CheckFails m c 11 := by
  rw [mul_units_lt_fval_iff, stepTooShort_iff, Int.cast_pow, Int.cast_ofNat]
  rfl

theorem frequency_iff_checkFails :
    (fval c.rxFmax < fval c.rxFmin ∨ fval c.rxFmin < fval (fneg pi32) ∨ fval pi32 < fval c.rxFmax) ↔
      Spec.CheckFails m c 12 := by
  rw [fval_lt_iff, fval_lt_iff, fval_lt_iff, binaryValue_fneg]
  rfl

/-! ### The check -/

/-- R331's table has no code beyond 12. -/
theorem not_checkFails_of_gt {j : Nat} (hj : 12 < j) : ¬ Spec.CheckFails m c j := by
  obtain ⟨n, rfl⟩ := Nat.exists_eq_add_of_le' hj
  exact id

theorem not_checkFails_zero : ¬ Spec.CheckFails m c 0 := id

/-- The check goes through R331's twelve conditions in order. -/
theorem checkConfig_firstFailing (m : Nat) (c : CfgRegs) : FirstFailing (Spec.CheckFails m c) 1 (checkConfig m c) :=
  .ite rfl Iff.rfl <| .ite rfl (badNtaps_iff _) <| .ite rfl Iff.rfl <| .ite rfl (badNtaps_iff _) <|
  .ite rfl Iff.rfl <| .ite rfl (badNtaps_iff _) <| .ite rfl floats_iff_checkFails <|
  .ite rfl filter_iff_checkFails <| .ite rfl omegaRel_iff_checkFails <| .ite rfl gains_iff_checkFails <|
  .ite rfl omegaMid_iff_checkFails <| .ite rfl frequency_iff_checkFails <|
  .none fun _ => not_checkFails_of_gt

/-- Settles O9: each condition of R331 on the encoded values is the line of the check with its code. -/
theorem configCheckReportsLowestFailingCode : Obligations.ConfigCheckReportsLowestFailingCode := by
  intro m c
  have hfirst := checkConfig_firstFailing m c
  refine ⟨fun k hk _ => hfirst.toNat_eq_iff one_pos hk, (hfirst.eq_zero_iff one_pos).trans ⟨fun hnone j => ?_, ?_⟩⟩
  · cases j with
    | zero => exact not_checkFails_zero
    | succ j => exact hnone _ (Nat.succ_pos j)
  · exact fun hnone j _ => hnone j

end Sys2Proof.Proofs
end

section
/-! No deadlock in RUN (70_reset_and_hazards.md R376): a full channel has something for the unit that reads it, so what is
stuck is stuck behind a unit nearer to the port, and the unit at a port with room is not stuck. -/

namespace Sys2Proof.Proofs

open Sys2Proof Sys2Proof.Machine

variable {s : State} {u w : UnitId}

/-- BUSY says that some unit has an element to take (R79). -/
theorem busy_iff_exists_inLength_pos : busy s = true ↔ ∃ u, 0 < inLength u s.ch := by
  refine ⟨fun h => ?_, fun ⟨_, hin⟩ => busy_of_inLength_pos hin⟩
  simp only [busy_eq_anyBusy, Spec.anyBusy, decide_eq_true_eq, ← List.length_pos_iff] at h
  rcases h with h | h | h | h | h | h | h | h | h
  exacts [⟨.mix0, h⟩, ⟨.fir0, h⟩, ⟨.qd, h⟩, ⟨.fir1, h⟩, ⟨.de, h⟩, ⟨.mix1, h⟩, ⟨.fir2, h⟩, ⟨.rx, h⟩, ⟨.dd, h⟩]

/-- If an element waits for `u`, some firing is enabled. -/
def Moves (s : State) (u : UnitId) : Prop := 0 < inLength u s.ch → ∃ v, enabled v s = true

theorem moves_of_room (hrun : s.mode = .run) (hroom : outLength u s.ch < Config.fifoDepth) : Moves s u :=
  fun hin => ⟨u, enabled_iff.2 ⟨hrun, hin, hroom⟩⟩

/-- Where `u` has no room, the unit `w` that reads its output has an element to take. -/
theorem moves_of_reader (hrun : s.mode = .run) (hreads : inOf w = outOf u) (hw : Moves s w) : Moves s u := by
  by_cases hroom : outLength u s.ch < Config.fifoDepth
  · exact moves_of_room hrun hroom
  · have hdepth : 0 < Config.fifoDepth := of_decide_eq_true hasSpace_zero
    have hfull : 0 < inLength w s.ch := by
      rw [inLength_eq, hreads, ← outLength_eq]
      omega
    exact fun _ => hw hfull

/-- The FM half, from AUD_OUT back to IQ_IN, and the tone half, from BIT_OUT back to AUD_IN (R77). -/
theorem moves_of_ports_room (hrun : s.mode = .run) (haud : s.ch.aout.length < Config.fifoDepth)
    (hbit : s.ch.bit.length < Config.fifoDepth) (u : UnitId) : Moves s u := by
  have hde : Moves s .de := moves_of_room hrun haud
  have hfir1 : Moves s .fir1 := moves_of_reader hrun rfl hde
  have hqd : Moves s .qd := moves_of_reader hrun rfl hfir1
  have hfir0 : Moves s .fir0 := moves_of_reader hrun rfl hqd
  have hmix0 : Moves s .mix0 := moves_of_reader hrun rfl hfir0
  have hdd : Moves s .dd := moves_of_room hrun hbit
  have hrx : Moves s .rx := moves_of_reader hrun rfl hdd
  have hfir2 : Moves s .fir2 := moves_of_reader hrun rfl hrx
  have hmix1 : Moves s .mix1 := moves_of_reader hrun rfl hfir2
  cases u <;> assumption

/-- Settles O40: some unit has an element to take, and from it the way to the port leads to an enabled firing. -/
theorem busyCoreWithRoomCanMove : Obligations.BusyCoreWithRoomCanMove := by
  intro s hrun hbusy haud hbit
  obtain ⟨u, hin⟩ := busy_iff_exists_inLength_pos.1 ((busy_eq_anyBusy s).trans hbusy)
  exact moves_of_ports_room hrun haud hbit u hin

end Sys2Proof.Proofs
end

section
/-! The two resets (70_reset_and_hazards.md R370 to R372). -/

namespace Sys2Proof.Proofs

open Sys2Proof Sys2Proof.Machine

variable {s : State}

/-! ### SOFT_RESET -/

/-- SOFT_RESET wins over the other bits, in every STATE (R142, R371). -/
theorem command_of_softReset {v : Word} (h : v.getLsbD 1 = true) : command v s = softReset s := if_pos h

/-- Settles O6: the write completes in `softReset s`, whose cleared fields the statement writes out. -/
theorem softResetClearsStreamKeepsConfiguration : Obligations.SoftResetClearsStreamKeepsConfiguration := by
  intro sub v s h
  refine ⟨decode_wrCtrl sub v, ?_⟩
  rw [exec_wrCtrl, command_of_softReset h]
  rfl

/-! ### The hard reset input -/

theorem step_of_hardReset {rest : List Event} (h : s.pending = .hardReset :: rest) :
    step s = .next (hardReset (retire s)) := by
  rw [step, h]

/-- Settles O14: the hard reset keeps the model's own fields, the schedule without the event. -/
theorem hardResetStepRestoresReset : Obligations.HardResetStepRestoresReset := by
  intro s rest h
  have hpending : (retire s).pending = rest := congrArg List.tail h
  rw [step_of_hardReset h, hardReset, hpending]
  rfl

/-! ### The invariants at reset -/

/-- Reset leaves STATE at IDLE (R370), so what is asked of RX in RUN holds. -/
theorem rxInRun_reset (Q : CfgRegs → Rx → Prop) : RxInRun Q State.reset :=
  fun hrun => absurd hrun (by decide)

/-- Settles O34: the structural invariant by its half outside RUN, the two bounds because they speak of RUN only. -/
theorem invariantsHoldAtReset : Obligations.InvariantsHoldAtReset :=
  ⟨inv_reset, carrierBounded_iff.2 (rxInRun_reset _), timingBounded_iff.2 (rxInRun_reset _)⟩

end Sys2Proof.Proofs
end
